-- ==== Sys2Proof/Word.lean ====
section
/-!
DEFINITION. The values the MT19937 core handles, with the widths of 00_scope.md R5, R7: all unsigned, bit 0 the
least significant. Addition, multiplication, shifts and bitwise operations are those of `BitVec` (00_scope.md R8:
`+32`, `*32`, logical right shift, left shift with truncation).
-/

namespace Sys2Proof

/-- A word: 32 bits (00_scope.md R7). Every state word, operand and output is one. -/
abbrev Word := BitVec 32

/-- A byte of a serialised word (20_memory.md R42). -/
abbrev Byte := BitVec 8

/-- A command word as it stands on the command port: 40 bits (30_encoding.md R60). -/
abbrev Cmd := BitVec 40

/-- A response word as it stands on the response port: 40 bits (30_encoding.md R67). -/
abbrev Rsp := BitVec 40

/-- The logical window MT[0..623], position 0 the front (oldest) word (10_state.md R21, R22). -/
abbrev Window := Vector Word 624

end Sys2Proof
end

