-- ==== Sys2Proof/Syntax.lean ====
section
/-!
DEFINITION. The seven commands of the opcode map (30_encoding.md R62), one constructor per row of
spec/opcode_table.json. Commands whose operand field is reserved (R63) carry no operand.
-/

namespace Sys2Proof

/-- A command of the core (30_encoding.md R62). The operand is the `u32` argument as it stands (R61). -/
inductive Instr where
  /-- SEED s: create a state from the seed s (40_seed.md R90). -/
  | seed (s : Word)
  /-- NEXT: advance the state by one word and return the tempered new word (41_next.md R100). -/
  | next
  /-- TEMPER x: the tempering function of x (42_temper.md R123). -/
  | temper (x : Word)
  /-- UNTEMPER y: the inverse of tempering of y (42_temper.md R127). -/
  | untemper (y : Word)
  /-- CLB, clone begin: start a load (43_clone.md R140). -/
  | clb
  /-- CLP y, clone push: load one observed output y (43_clone.md R141). -/
  | clp (y : Word)
  /-- RDSTAT: read STATUS (44_status.md R160). -/
  | rdstat
  deriving DecidableEq, Repr

/-- The mnemonic of a command, as 30_encoding.md R62 and R71 spell it. -/
def Instr.mnemonic : Instr → String
  | .seed _ => "SEED"
  | .next => "NEXT"
  | .temper _ => "TEMPER"
  | .untemper _ => "UNTEMPER"
  | .clb => "CLB"
  | .clp _ => "CLP"
  | .rdstat => "RDSTAT"

end Sys2Proof
end

