-- ==== Sys2Proof/WellFormed.lean ====
section
/-!
DEFINITION. Well-formedness. A 40-bit word is a command when it matches a row of the opcode map by match and mask
(30_encoding.md R62). Every term of `Instr` is well formed: an operand may be any word (R61), and a reserved operand
field (R63) has no place in the syntax.
-/

namespace Sys2Proof

/-- One row of the opcode map: the word w is the row's command when `w &&& mask = pattern` (30_encoding.md R62). -/
structure OpRow where
  mnemonic : String
  pattern : Cmd
  mask : Cmd
  deriving DecidableEq, Repr

/-- The opcode map of 30_encoding.md R62, in its order. -/
def opcodeMap : List OpRow :=
  [⟨"SEED", 0x0100000000#40, 0xFF00000000#40⟩,
   ⟨"NEXT", 0x0200000000#40, 0xFFFFFFFFFF#40⟩,
   ⟨"TEMPER", 0x0300000000#40, 0xFF00000000#40⟩,
   ⟨"UNTEMPER", 0x0400000000#40, 0xFF00000000#40⟩,
   ⟨"CLB", 0x0500000000#40, 0xFFFFFFFFFF#40⟩,
   ⟨"CLP", 0x0600000000#40, 0xFF00000000#40⟩,
   ⟨"RDSTAT", 0x0700000000#40, 0xFFFFFFFFFF#40⟩]

/-- The word w matches the row r (30_encoding.md R62). -/
def OpRow.covers (r : OpRow) (w : Cmd) : Bool := w &&& r.mask == r.pattern

/-- The word is a command: it matches some row of the opcode map (30_encoding.md R62, R64). -/
def wordIsCommand (w : Cmd) : Bool := opcodeMap.any (·.covers w)

/-- Every command term is well formed: every operand value is legal (30_encoding.md R61). -/
def Instr.wellFormed : Instr → Bool
  | .seed _ => true
  | .next => true
  | .temper _ => true
  | .untemper _ => true
  | .clb => true
  | .clp _ => true
  | .rdstat => true

end Sys2Proof
end

