-- ==== Sys2Proof/Decode.lean ====
section
/-!
DEFINITION. Decoding a 40-bit command word (30_encoding.md R60 to R66) and the encoder, written from the same table.
Decoding is total and depends on the word alone (R66).
-/

namespace Sys2Proof

/-- Why a word is no command (30_encoding.md R64). Both get the same response, ERR_ILLEGAL (log entry 13). -/
inductive IllegalWord where
  /-- Opcode 0x00 or 0x08 to 0xFF, with any operand. -/
  | reservedOpcode (op : BitVec 8)
  /-- Opcode 0x02, 0x05 or 0x07 with a non-zero operand (30_encoding.md R63). -/
  | reservedOperand (op : BitVec 8) (operand : Word)
  deriving DecidableEq, Repr

/-- Bits 39:32 of a command word (30_encoding.md R60). -/
def opcodeOf (w : Cmd) : BitVec 8 := w.extractLsb' 32 8

/-- Bits 31:0 of a command word, as they stand (30_encoding.md R60, R61). -/
def operandOf (w : Cmd) : Word := w.extractLsb' 0 32

/-- A command whose operand field is reserved and must be zero (30_encoding.md R63). -/
def noOperand (op : BitVec 8) (operand : Word) (i : Instr) : Except IllegalWord Instr :=
  if operand = 0#32 then .ok i else .error (.reservedOperand op operand)

/-- The decoder of 30_encoding.md R66, on the two fields of the word. -/
def decodeFields (op : BitVec 8) (arg : Word) : Except IllegalWord Instr :=
  if op = 0x01#8 then .ok (.seed arg)
  else if op = 0x02#8 then noOperand op arg .next
  else if op = 0x03#8 then .ok (.temper arg)
  else if op = 0x04#8 then .ok (.untemper arg)
  else if op = 0x05#8 then noOperand op arg .clb
  else if op = 0x06#8 then .ok (.clp arg)
  else if op = 0x07#8 then noOperand op arg .rdstat
  else .error (.reservedOpcode op)

/-- `decode(w: 40 bits)` of 30_encoding.md R66. -/
def decode (w : Cmd) : Except IllegalWord Instr := decodeFields (opcodeOf w) (operandOf w)

/-- The opcode of a command (30_encoding.md R62). -/
def Instr.opcode : Instr → BitVec 8
  | .seed _ => 0x01#8
  | .next => 0x02#8
  | .temper _ => 0x03#8
  | .untemper _ => 0x04#8
  | .clb => 0x05#8
  | .clp _ => 0x06#8
  | .rdstat => 0x07#8

/-- The operand field of a command; a reserved field is zero (30_encoding.md R61, R63). -/
def Instr.operand : Instr → Word
  | .seed s => s
  | .next => 0#32
  | .temper x => x
  | .untemper y => y
  | .clb => 0#32
  | .clp y => y
  | .rdstat => 0#32

/-- `word = opcode * 2^32 + operand` (30_encoding.md R60). -/
def encode (i : Instr) : Cmd := i.opcode ++ i.operand

/-- The command the decoder reads from the table row's word `w` of `nbits` bits; bits above `nbits` are zero. A command
is one 40-bit word, so the table's numbering of its bits is the spec's own (log entry 15). -/
def decodeTableWord (nbits w : Nat) : Option Instr :=
  if w % 2 ^ nbits < 2 ^ 40 then
    match decode (BitVec.ofNat 40 (w % 2 ^ nbits)) with
    | .ok i => some i
    | .error _ => none
  else none

end Sys2Proof
end

