-- ==== Sys2Proof/Config.lean ====
section
/-!
DEFINITION. What the spec leaves open. The open parameters of 00_scope.md R6 (LAT, PORT_ATTACH, NUM_INSTANCES) are
read by no rule and have no place here. The one free value is the contents of MT[0..623] after a reset, which the
spec says have no value (10_state.md R33, 93_implementation_defined.md U5).
-/

namespace Sys2Proof.Config

/-- FREE VALUE (log entry 1; DESIGN CHOICE, safe): the word at position `pos` of the window after the `draw`-th reset.
It has no body, so that no claim can rest on it: 10_state.md R33 asks that a model "must not give the words a value a
claim could depend on". -/
opaque resetWord (draw pos : Nat) : Word

end Sys2Proof.Config
end

