-- ==== Sys2Proof/Machine/State.lean ====
section
/-!
DEFINITION. The state of one core: the complete architectural state of 10_state.md R20, and the two ports of
30_encoding.md R70 as plain data. The core has no program counter and no addressable memory (10_state.md R28,
20_memory.md R40), so the state has neither.
-/

namespace Sys2Proof.Machine

/-- What the host can do to the core (70_reset_and_hazards.md R208, R209). -/
inductive Event where
  /-- One command word presented on the command port, legal or not. -/
  | command (w : Cmd)
  /-- The reset event. `inFlight` is the command word that was executing, or offered and not yet taken, when the reset
  came: it is abandoned and gets no response (70_reset_and_hazards.md R200; log entry 6). -/
  | reset (inFlight : Option Cmd)
  deriving DecidableEq, Repr

/-- The state of the core and its ports. -/
structure State where
  /-- MT[0..623], the logical window (10_state.md R21, R22). -/
  mt : Window
  /-- VALID: MT is a Generator State (10_state.md R23). -/
  valid : Bool
  /-- LOADING: a load is in progress (10_state.md R24). -/
  loading : Bool
  /-- LCNT: the number of words loaded so far, 0 to 623, also the position the next CLP writes (10_state.md R25). -/
  lcnt : Fin 624
  /-- ERR, sticky (10_state.md R26). -/
  err : Bool
  /-- The events the host has yet to present, in order (30_encoding.md R70, 70_reset_and_hazards.md R208). -/
  input : List Event
  /-- The response words handed to the host so far, oldest first (30_encoding.md R67, R70). -/
  output : List Rsp
  /-- The model's own: how many resets the core has had since State.reset; it selects the free words of the window
  after each (log entry 2). -/
  resets : Nat
  deriving DecidableEq, Repr

/-- The core has no fault: an error is an ordinary response, after which the next command executes normally, and
nothing stops the core (60_exceptions.md R174, R179). The type is empty, so that `step` cannot answer one
(log entry 17). -/
inductive Fault where
  deriving DecidableEq, Repr

/-- The reasons the model gives an instruction no meaning. -/
inductive Refusal where
  /-- Raised by an arm of `exec` for an instruction not modelled yet (safe). Every command has its meaning, so no arm
  raises it. -/
  | notModelled (mnemonic : String)
  deriving DecidableEq, Repr

/-- The window after the `draw`-th reset: no value, that is, free values (10_state.md R33; log entry 1). It is
irreducible so that no comparison of states spells out 624 free words. -/
@[irreducible] def resetWindow (draw : Nat) : Window := ⟨((List.range 624).map (Config.resetWord draw)).toArray, by simp⟩

/-- The core right after reset (10_state.md R33), with nothing on its ports. -/
def State.reset : State where
  mt := resetWindow 0
  valid := false
  loading := false
  lcnt := 0
  err := false
  input := []
  output := []
  resets := 0

end Sys2Proof.Machine
end

