-- ==== Sys2Proof/Machine/Ops.lean ====
section
/-!
DEFINITION. The named operations over the state: one write per piece of state, the response word, ending a command
(`respondOk`, `raiseError`, `require`: 00_scope.md R10, 60_exceptions.md R177), the reset event and the taking of the
next event from the port. Raising an error is this core's taking of an exception; there is no return from it (R179).
-/

namespace Sys2Proof.Machine

/-- MT <- mt. -/
def State.withMt (mt : Window) (s : State) : State := { s with mt := mt }
/-- VALID <- b. -/
def State.withValid (b : Bool) (s : State) : State := { s with valid := b }
/-- LOADING <- b. -/
def State.withLoading (b : Bool) (s : State) : State := { s with loading := b }
/-- LCNT <- n. -/
def State.withLcnt (n : Fin 624) (s : State) : State := { s with lcnt := n }
/-- ERR <- b. -/
def State.withErr (b : Bool) (s : State) : State := { s with err := b }
/-- The events yet to be presented become `es`. -/
def State.withInput (es : List Event) (s : State) : State := { s with input := es }
/-- One response word goes out on the response port (30_encoding.md R67). -/
def State.emit (r : Rsp) (s : State) : State := { s with output := s.output ++ [r] }

/-- The status codes of a response; no other value appears (30_encoding.md R68). -/
inductive RspStatus where
  /-- The command executed. -/
  | ok
  /-- The word is not a command. -/
  | errIllegal
  /-- The command is well formed but the state does not allow it. -/
  | errPrecond
  deriving DecidableEq, Repr

/-- The code of a status (30_encoding.md R68). -/
def RspStatus.code : RspStatus → BitVec 8
  | .ok => 0x00#8
  | .errIllegal => 0x01#8
  | .errPrecond => 0x02#8

/-- The response word `{status, data}` (30_encoding.md R67). -/
def rspWord (st : RspStatus) (data : Word) : Rsp := st.code ++ data

/-- Bits 39:32 of a response word (30_encoding.md R67). -/
def rspStatus (r : Rsp) : BitVec 8 := r.extractLsb' 32 8

/-- Bits 31:0 of a response word (30_encoding.md R67). -/
def rspData (r : Rsp) : Word := r.extractLsb' 0 32

/-- `respond(OK, d)` (00_scope.md R10). -/
def respondOk (d : Word) (s : State) : Host.Outcome State Fault Refusal := .next (s.emit (rspWord .ok d))

/-- `raise Error(code)`: ERR <- 1, respond (code, 0), and nothing else (60_exceptions.md R177). -/
def raiseError (code : RspStatus) (s : State) : Host.Outcome State Fault Refusal :=
  .next ((s.withErr true).emit (rspWord code 0#32))

/-- `require cond else raise Error(code)`, evaluated before any state is written (00_scope.md R10). -/
def require (cond : Bool) (code : RspStatus) (body : State → Host.Outcome State Fault Refusal) (s : State) :
    Host.Outcome State Fault Refusal :=
  if cond then body s else raiseError code s

/-- The reset event (70_reset_and_hazards.md R200): the state of 10_state.md R33, with fresh free words in the window.
The events the host still has to present and the responses it already holds are the host's and stay. -/
def takeReset (s : State) : State :=
  { State.reset with
    mt := resetWindow (s.resets + 1), resets := s.resets + 1, input := s.input, output := s.output }

/-- A word that is no command: ERR_ILLEGAL, whatever the reason (30_encoding.md R64, 60_exceptions.md R172). -/
def illegalCommand (_why : IllegalWord) (s : State) : Host.Outcome State Fault Refusal := raiseError .errIllegal s

/-- With no event pending the core waits: nothing changes (60_exceptions.md R177, 70_reset_and_hazards.md R210; DESIGN
CHOICE, log entry 4). -/
def waitForHost (s : State) : Host.Outcome State Fault Refusal := .next s

/-- Take the next event from the port, if the host presents one (30_encoding.md R70). -/
def takeEvent (s : State) : Option (Event × State) :=
  match s.input with
  | [] => none
  | e :: es => some (e, s.withInput es)

end Sys2Proof.Machine
end

