-- ==== Sys2Proof/Machine/Operands.lean ====
section
/-!
DEFINITION. The operands of the commands: the window positions they read and write (20_memory.md R41), and the byte
order in which a host serialises a data word (20_memory.md R42). The operand field itself is taken as it stands by
the decoder (30_encoding.md R61).
-/

namespace Sys2Proof.Machine

/-- The front word, MT[0] (10_state.md R22). -/
def State.front (s : State) : Word := s.mt[0]

/-- The following word, MT[1] (10_state.md R22). -/
def State.following (s : State) : Word := s.mt[1]

/-- The word 397 positions ahead in the window, MT[397] (10_state.md R22). -/
def State.ahead (s : State) : Word := s.mt[397]

/-- MT[i] <- w, one position and no other (20_memory.md R41). -/
def State.writeWord (i : Fin 624) (w : Word) (s : State) : State := s.withMt (s.mt.set i.val w)

/-- Byte k of the word v is `v[8k+7:8k]` (20_memory.md R42). -/
def byteOf (v : Word) (k : Nat) : Byte := v.extractLsb' (8 * k) 8

/-- The little-endian bytes of a word, byte 0 first (20_memory.md R42). -/
def wordBytes (v : Word) : List Byte := [byteOf v 0, byteOf v 1, byteOf v 2, byteOf v 3]

/-- The first `n` bytes of the stream a host builds from data words; the last word may be used in part, bytes 0 upward
(20_memory.md R42). -/
def byteStream (vs : List Word) (n : Nat) : List Byte := (vs.flatMap wordBytes).take n

end Sys2Proof.Machine
end

