-- ==== Sys2Proof/Machine/Flags.lean ====
section
/-!
DEFINITION. The flags VALID, LOADING, ERR and the counter LCNT as the commands write them (10_state.md R23 to R26),
and the view STATUS (10_state.md R29).
-/

namespace Sys2Proof.Machine

/-- VALID <- 1, LOADING <- 0, LCNT <- 0: a state is complete (40_seed.md R90, 43_clone.md R141). -/
def State.enterRunning (s : State) : State := ((s.withValid true).withLoading false).withLcnt 0

/-- VALID <- 0, LOADING <- 1, LCNT <- 0: a load begins (43_clone.md R140). -/
def State.enterLoading (s : State) : State := ((s.withValid false).withLoading true).withLcnt 0

/-- The flags and the counter after a CLP: n = LCNT + 1 words are loaded; the 624th completes the load
(43_clone.md R141). -/
def State.countPush (s : State) : State :=
  if h : s.lcnt.val + 1 < 624 then s.withLcnt ⟨s.lcnt.val + 1, h⟩ else s.enterRunning

/-- A flag as a word: 0 or 1. -/
def flagWord (b : Bool) : Word := if b then 1#32 else 0#32

/-- STATUS = (LCNT << 16) or (ERR << 2) or (LOADING << 1) or VALID (10_state.md R29). -/
def statusWord (s : State) : Word :=
  (BitVec.ofNat 32 s.lcnt.val <<< 16) ||| (flagWord s.err <<< 2) ||| (flagWord s.loading <<< 1) ||| flagWord s.valid

end Sys2Proof.Machine
end

