-- ==== Sys2Proof/Machine/Params.lean ====
section
/-!
DEFINITION. The fixed parameters of 00_scope.md R5. N = 624 stands in the types (`Window`, `State.lcnt`); W = 32 in `Word`.
-/

namespace Sys2Proof.Machine.Params

/-- UPPER: the top bit of the front word (41_next.md R101). -/
def upper : Word := 0x80000000#32
/-- LOWER: the low 31 bits of the following word (41_next.md R101). -/
def lower : Word := 0x7FFFFFFF#32
/-- A: the twist constant (41_next.md R102). -/
def twistConst : Word := 0x9908B0DF#32
/-- F: the multiplier of the seeding recurrence (40_seed.md R90). -/
def seedMul : Word := 1812433253#32
/-- The right shift of the seeding recurrence (40_seed.md R90). -/
def seedShift : Nat := 30
/-- U: right shift of tempering stage 1 (42_temper.md R120). -/
def shiftU : Nat := 11
/-- S: left shift of tempering stage 2 (42_temper.md R120). -/
def shiftS : Nat := 7
/-- B: mask of tempering stage 2 (42_temper.md R121). -/
def maskB : Word := 0x9D2C5680#32
/-- T: left shift of tempering stage 3 (42_temper.md R120). -/
def shiftT : Nat := 15
/-- C: mask of tempering stage 3 (42_temper.md R121). -/
def maskC : Word := 0xEFC60000#32
/-- L: right shift of tempering stage 4 (42_temper.md R120). -/
def shiftL : Nat := 18

end Sys2Proof.Machine.Params
end

