-- ==== Sys2Proof/Machine/Tempering.lean ====
section
/-!
DEFINITION. The functions temper and untemper (42_temper.md R120 to R129) and the commands TEMPER and UNTEMPER
(R123, R127). The commands use temper (R120) and form 1 of untemper (R125); the matrix forms (R126, R129) are
definitions of their own, which the spec says compute the same functions.
-/

namespace Sys2Proof.Machine

/-- A right-shift stage: `v xor (v >> k)` (42_temper.md R120, R122). -/
def stageRight (k : Nat) (v : Word) : Word := v ^^^ (v >>> k)

/-- A masked left-shift stage: `v xor ((v << k) and m)` (42_temper.md R120, R122). -/
def stageLeft (k : Nat) (m v : Word) : Word := v ^^^ ((v <<< k) &&& m)

/-- temper: the four stages in order (42_temper.md R120). -/
def temper (x : Word) : Word :=
  stageRight Params.shiftL <|
    stageLeft Params.shiftT Params.maskC <|
      stageLeft Params.shiftS Params.maskB <|
        stageRight Params.shiftU x

/-- Undo a right-shift stage: `n` repetitions of `v' = u xor (v' >> k)`, starting from u (42_temper.md R125). -/
def undoRight (k : Nat) (u : Word) : Nat → Word
  | 0 => u
  | n + 1 => u ^^^ (undoRight k u n >>> k)

/-- Undo a left-shift stage: `n` repetitions of `v' = u xor ((v' << k) and m)`, starting from u (42_temper.md R125). -/
def undoLeft (k : Nat) (m u : Word) : Nat → Word
  | 0 => u
  | n + 1 => u ^^^ ((undoLeft k m u n <<< k) &&& m)

/-- untemper, form 1: the stages of temper undone last to first, with the repetitions of 42_temper.md R125: one for 18,
two for 15, four for 7, two for 11. -/
def untemper (z : Word) : Word :=
  let a := undoRight Params.shiftL z 1
  let b := undoLeft Params.shiftT Params.maskC a 2
  let c := undoLeft Params.shiftS Params.maskB b 4
  undoRight Params.shiftU c 2

/-- `parity(a)`: the xor of the 32 bits of a (00_scope.md R8). -/
def parity (a : Word) : Bool := (List.range 32).foldl (fun b i => b ^^ a.getLsbD i) false

/-- The word whose bit i is the parity of z and the i-th mask (42_temper.md R126, R129). -/
def matrixApply (rows : List Word) (z : Word) : Word :=
  rows.foldr (fun u acc => (acc <<< 1) ||| flagWord (parity (z &&& u))) 0#32

/-- The masks U[0..31] of untemper (42_temper.md R126). -/
def untemperRows : List Word :=
  [0x22440881#32, 0x44081122#32, 0x89022200#32, 0x10244489#32, 0x64C89830#32, 0x48911020#32, 0x133640C5#32, 0x02204889#32,
   0x04889120#32, 0x81130000#32, 0x12044489#32, 0x22400880#32, 0x44001120#32, 0x89122204#32, 0x10044481#32, 0x64889820#32,
   0x48111000#32, 0x12364085#32, 0x00244808#32, 0x00889020#32, 0x89030204#32, 0x02244081#32, 0x02400080#32, 0x04800100#32,
   0x09120204#32, 0x12000400#32, 0x64881820#32, 0x48101000#32, 0x12244081#32, 0x20004000#32, 0x40008000#32, 0x89130204#32]

/-- The columns untemper(1 << j), j = 0..31 (42_temper.md R126). -/
def untemperCols : List Word :=
  [0x102244C9#32, 0x00000002#32, 0x81122040#32, 0x00040488#32, 0x00000010#32, 0x04089132#32, 0x00000040#32, 0x10624CC9#32,
   0x00801102#32, 0x81102004#32, 0x02004408#32, 0x04048891#32, 0x0C099132#32, 0x00002004#32, 0x302644C8#32, 0x40088110#32,
   0x80110220#32, 0x81122244#32, 0x10264449#32, 0x04088112#32, 0x89032260#32, 0x102600C8#32, 0x00400811#32, 0x04888130#32,
   0x81102244#32, 0x12620CC1#32, 0x04809112#32, 0x89112024#32, 0x12024448#32, 0x24008811#32, 0x4C019032#32, 0x80102204#32]

/-- The masks T[0..31] of temper (42_temper.md R129). -/
def temperRows : List Word :=
  [0x20444009#32, 0x40880002#32, 0x80102004#32, 0x02200008#32, 0x00448891#32, 0x00890120#32, 0x11102244#32, 0x02244C89#32,
   0x44400900#32, 0x88813224#32, 0x10004408#32, 0x22444880#32, 0x44819020#32, 0x88012000#32, 0x02044080#32, 0x04008000#32,
   0x08010000#32, 0x10022004#32, 0x20444808#32, 0x40881000#32, 0x80100000#32, 0x02204000#32, 0x00440881#32, 0x00880100#32,
   0x11122204#32, 0x02204408#32, 0x44480800#32, 0x88911020#32, 0x10200000#32, 0x22044080#32, 0x44008000#32, 0x89010000#32]

/-- untemper, form 2: one parity per output bit (42_temper.md R126). -/
def untemperMatrix (z : Word) : Word := matrixApply untemperRows z

/-- The xor of the columns j for which z[j] = 1 (42_temper.md R126). -/
def columnsApply (cols : List Word) (z : Word) : Word :=
  (cols.zipIdx).foldl (fun acc c => if z.getLsbD c.2 then acc ^^^ c.1 else acc) 0#32

/-- temper as a matrix: one parity per output bit (42_temper.md R129). -/
def temperMatrix (x : Word) : Word := matrixApply temperRows x

/-- TEMPER x: respond temper(x); no state is written and no error is possible (42_temper.md R123). -/
def execTemper (x : Word) (s : State) : Host.Outcome State Fault Refusal := respondOk (temper x) s

/-- UNTEMPER y: respond untemper(y); no state is written and no error is possible (42_temper.md R127). -/
def execUntemper (y : Word) (s : State) : Host.Outcome State Fault Refusal := respondOk (untemper y) s

end Sys2Proof.Machine
end

