-- ==== Sys2Proof/Machine/Advance.lean ====
section
/-!
DEFINITION. NEXT: the state advance and the tempered output (41_next.md R100 to R108).
-/

namespace Sys2Proof.Machine

/-- The combined value: bit 31 of the front word, bits 30 to 0 of the following word (41_next.md R101). -/
def combine (front following : Word) : Word := (front &&& Params.upper) ||| (following &&& Params.lower)

/-- twist(y): the shift always, the constant only if bit 0 of y was set (41_next.md R102). -/
def twist (y : Word) : Word := (y >>> 1) ^^^ (if y.getLsbD 0 then Params.twistConst else 0#32)

/-- The new word: `twist(y) xor MT[397]`, read before the advance (41_next.md R103). -/
def State.newWord (s : State) : Word := twist (combine s.front s.following) ^^^ s.ahead

/-- The window advance: the front word is dropped, every other word moves one position toward the front, and w is
appended at position 623 (41_next.md R103). -/
def advanceWindow (mt : Window) (w : Word) : Window := ⟨(mt.toList.tail ++ [w]).toArray, by simp⟩

/-- NEXT (41_next.md R100): refused with ERR_PRECOND while VALID = 0. -/
def execNext (s : State) : Host.Outcome State Fault Refusal :=
  require s.valid .errPrecond (fun s => respondOk (temper s.newWord) (s.withMt (advanceWindow s.mt s.newWord))) s

end Sys2Proof.Machine
end

