-- ==== Sys2Proof/Machine/Cloning.lean ====
section
/-!
DEFINITION. State reconstruction from outputs: CLB and CLP (43_clone.md R140 to R147).
-/

namespace Sys2Proof.Machine

/-- CLB, clone begin (43_clone.md R140): legal in every state; no word of MT is written. -/
def execClb (s : State) : Host.Outcome State Fault Refusal := respondOk 0#32 s.enterLoading

/-- CLP y, clone push (43_clone.md R141): refused with ERR_PRECOND while LOADING = 0. The response is the number of
words loaded, 1 to 624, not truncated to 10 bits. -/
def execClp (y : Word) (s : State) : Host.Outcome State Fault Refusal :=
  require s.loading .errPrecond
    (fun s => respondOk (BitVec.ofNat 32 (s.lcnt.val + 1)) (s.writeWord s.lcnt (untemper y)).countPush) s

end Sys2Proof.Machine
end

