-- ==== Sys2Proof/Machine/Seeding.lean ====
section
/-!
DEFINITION. SEED, creating a state from a 32-bit seed (40_seed.md R90 to R93).
-/

namespace Sys2Proof.Machine

/-- The word after p in the seeding recurrence, at index i: multiply, then add (40_seed.md R90, R91). -/
def seedNext (p : Word) (i : Nat) : Word :=
  Params.seedMul * (p ^^^ (p >>> Params.seedShift)) + BitVec.ofNat 32 i

/-- `n` words of the seeding recurrence, the first being p at index i (40_seed.md R90). -/
def seedList : Nat → Nat → Word → List Word
  | 0, _, _ => []
  | n + 1, i, p => p :: seedList n (i + 1) (seedNext p (i + 1))

/-- The recurrence makes as many words as it is asked for. -/
@[simp] theorem seedList_length (n i : Nat) (p : Word) : (seedList n i p).length = n := by
  induction n generalizing i p with
  | zero => rfl
  | succ n ih => simp [seedList, ih]

/-- The 624 words of the state that SEED creates: a pure function of the seed (40_seed.md R90, R92). -/
def seedWindow (v : Word) : Window := ⟨(seedList 624 0 v).toArray, by simp⟩

/-- SEED s (40_seed.md R90): legal in every state; ERR is not written. -/
def execSeed (v : Word) (s : State) : Host.Outcome State Fault Refusal :=
  respondOk 0#32 (s.withMt (seedWindow v)).enterRunning

end Sys2Proof.Machine
end

