-- ==== Sys2Proof/Machine/Status.lean ====
section
/-!
DEFINITION. RDSTAT: reading the status (44_status.md R160, R161).
-/

namespace Sys2Proof.Machine

/-- RDSTAT (44_status.md R160): respond STATUS; nothing is written, ERR is not cleared. -/
def execRdstat (s : State) : Host.Outcome State Fault Refusal := respondOk (statusWord s) s

end Sys2Proof.Machine
end

