-- ==== Sys2Proof/Machine/Dispatch.lean ====
section
/-! DEFINITION. The dispatch: one arm per command of the opcode map (30_encoding.md R62). -/

namespace Sys2Proof.Machine

def exec (i : Instr) (s : State) : Host.Outcome State Fault Refusal :=
  match i with
  | .seed v => Sys2Proof.Machine.execSeed v s
  | .next => Sys2Proof.Machine.execNext s
  | .temper x => Sys2Proof.Machine.execTemper x s
  | .untemper y => Sys2Proof.Machine.execUntemper y s
  | .clb => Sys2Proof.Machine.execClb s
  | .clp y => Sys2Proof.Machine.execClp y s
  | .rdstat => Sys2Proof.Machine.execRdstat s

end Sys2Proof.Machine
end

