-- ==== Sys2Proof/Machine/Step.lean ====
section
/-!
DEFINITION. One step of the core (70_reset_and_hazards.md R210): take the next event the host presents; a command word
is decoded and executed completely, atomically (20_memory.md R44, R48); a word that is no command gets ERR_ILLEGAL,
and its check comes before any test of the state (60_exceptions.md R176); a reset resets; with no event pending the core
waits.
-/

namespace Sys2Proof.Machine

/-- One step of the core. -/
def step (s : State) : Host.Outcome State Fault Refusal :=
  match takeEvent s with
  | none => waitForHost s
  | some (.reset _, t) => .next (takeReset t)
  | some (.command w, t) =>
    match decode w with
    | .ok i => exec i t
    | .error why => illegalCommand why t

/-- The state in which the host presents the command word w as its next event (log entry 7). -/
def State.withFetchWord (s : State) (nbits w : Nat) : State :=
  s.withInput (.command (BitVec.ofNat 40 (w % 2 ^ nbits)) :: s.input)

end Sys2Proof.Machine
end

