-- ==== Sys2Proof/Machine/Assembler.lean ====
section
/-!
DEFINITION. The textual form of a command sequence (30_encoding.md R71) and the pseudo-instruction CLONE (R72): from text
to the 40-bit command words a host sends. It is the host's side; no step of the core depends on it. What R71 leaves open
(blanks, the case of hexadecimal digits, lines with a comment only) is log entry 14.
-/

namespace Sys2Proof.Machine

/-- Why a line is an assembler error (30_encoding.md R71, R72). -/
inductive AsmError where
  /-- The first word of the line is no mnemonic. -/
  | unknownMnemonic
  /-- A command that takes an operand has none. -/
  | missingOperand
  /-- More operands than the command takes. -/
  | extraOperand
  /-- An operand is no number of the syntax. -/
  | malformedOperand
  /-- A number above 4294967295. -/
  | outOfRange
  /-- CLONE with another number of operands than 624 (30_encoding.md R72). -/
  | cloneCount (n : Nat)
  /-- `.word` without `0x` and ten hexadecimal digits. -/
  | malformedWord
  deriving DecidableEq, Repr

/-- The seven mnemonics (30_encoding.md R71). -/
inductive Mnemonic where
  | seed | next | temper | untemper | clb | clp | rdstat
  deriving DecidableEq, Repr

/-- A line of the source text, read (30_encoding.md R71, R72). -/
inductive AsmLine where
  /-- Nothing, or a comment only. -/
  | empty
  /-- A command and its operands as numbers. -/
  | command (m : Mnemonic) (operands : List Nat)
  /-- The pseudo-instruction `CLONE y0, …`. -/
  | clone (ys : List Nat)
  /-- `.word 0x…`: a word as it stands, legal or not. -/
  | word (w : Cmd)
  deriving DecidableEq, Repr

/-- An operand as a word, if it is in range: 0 to 4294967295 (30_encoding.md R71). -/
def asmOperand (n : Nat) : Except AsmError Word :=
  if n < 4294967296 then .ok (BitVec.ofNat 32 n) else .error .outOfRange

/-- A command that takes exactly one operand (30_encoding.md R71). -/
def assembleOne (mk : Word → Instr) : List Nat → Except AsmError (List Cmd)
  | [] => .error .missingOperand
  | [n] => (asmOperand n).map fun v => [encode (mk v)]
  | _ :: _ :: _ => .error .extraOperand

/-- A command that takes no operand; the assembler emits operand 0 (30_encoding.md R71). -/
def assembleNone (i : Instr) : List Nat → Except AsmError (List Cmd)
  | [] => .ok [encode i]
  | _ :: _ => .error .extraOperand

/-- The operands of CLONE as CLP words, in order; every operand must be in range (30_encoding.md R72). -/
def assemblePushes : List Nat → Except AsmError (List Cmd)
  | [] => .ok []
  | y :: ys =>
    match asmOperand y with
    | .error e => .error e
    | .ok v =>
      match assemblePushes ys with
      | .error e => .error e
      | .ok ws => .ok (encode (.clp v) :: ws)

/-- CLONE with exactly 624 operands is CLB and 624 CLP; any other count is an error (30_encoding.md R72). -/
def assembleClone (ys : List Nat) : Except AsmError (List Cmd) :=
  if ys.length = 624 then (assemblePushes ys).map (encode .clb :: ·) else .error (.cloneCount ys.length)

/-- The command words of one line (30_encoding.md R71, R72). -/
def assembleLine : AsmLine → Except AsmError (List Cmd)
  | .empty => .ok []
  | .command .seed ns => assembleOne .seed ns
  | .command .next ns => assembleNone .next ns
  | .command .temper ns => assembleOne .temper ns
  | .command .untemper ns => assembleOne .untemper ns
  | .command .clb ns => assembleNone .clb ns
  | .command .clp ns => assembleOne .clp ns
  | .command .rdstat ns => assembleNone .rdstat ns
  | .clone ys => assembleClone ys
  | .word w => .ok [w]

/-- A piece of a line: a comma, or characters without blanks, commas and comment. -/
inductive Token where
  | comma
  | chars (cs : List Char)
  deriving DecidableEq, Repr

/-- The token under construction, if it has any characters. -/
def flushToken (acc : List Char) : List Token := if acc.isEmpty then [] else [.chars acc]

/-- The tokens of a line; a `;` starts a comment, which runs to the end of the line (30_encoding.md R71). -/
def tokenize (acc : List Char) : List Char → List Token
  | [] => flushToken acc
  | c :: cs =>
    if c = ';' then flushToken acc
    else if c = ' ' ∨ c = '\t' ∨ c = '\r' then flushToken acc ++ tokenize [] cs
    else if c = ',' then flushToken acc ++ .comma :: tokenize [] cs
    else tokenize (acc ++ [c]) cs

/-- The value of a digit in base `base`, 10 or 16. -/
def digitValue (base : Nat) (c : Char) : Option Nat :=
  let n := c.toNat
  let v := if 48 ≤ n ∧ n ≤ 57 then n - 48
    else if 65 ≤ n ∧ n ≤ 70 then n - 55
    else if 97 ≤ n ∧ n ≤ 102 then n - 87
    else base
  if v < base then some v else none

/-- The number the digits spell after `acc`. -/
def readDigits (base acc : Nat) : List Char → Option Nat
  | [] => some acc
  | c :: cs =>
    match digitValue base c with
    | some d => readDigits base (acc * base + d) cs
    | none => none

/-- `operand ::= decimal | "0x" hexdigits` (30_encoding.md R71); at least one digit. -/
def readNumber : List Char → Option Nat
  | '0' :: 'x' :: c :: cs => readDigits 16 0 (c :: cs)
  | c :: cs => readDigits 10 0 (c :: cs)
  | [] => none

/-- Operands of a command: numbers with no commas between them. -/
def readOperands : List Token → Except AsmError (List Nat)
  | [] => .ok []
  | .comma :: _ => .error .malformedOperand
  | .chars cs :: ts =>
    match readNumber cs with
    | none => .error .malformedOperand
    | some n => (readOperands ts).map (n :: ·)

/-- Operands of CLONE: numbers separated by commas (30_encoding.md R72). -/
def readList : List Token → Except AsmError (List Nat)
  | [] => .ok []
  | [.chars cs] =>
    match readNumber cs with
    | none => .error .malformedOperand
    | some n => .ok [n]
  | .chars cs :: .comma :: .chars ds :: ts =>
    match readNumber cs with
    | none => .error .malformedOperand
    | some n => (readList (.chars ds :: ts)).map (n :: ·)
  | _ => .error .malformedOperand

/-- The operand of `.word`: `0x` and ten hexadecimal digits (30_encoding.md R71). -/
def readRaw : List Token → Except AsmError AsmLine
  | [.chars ('0' :: 'x' :: ds)] =>
    if ds.length = 10 then
      match readDigits 16 0 ds with
      | some n => .ok (.word (BitVec.ofNat 40 n))
      | none => .error .malformedWord
    else .error .malformedWord
  | _ => .error .malformedWord

/-- The mnemonic a token spells, in upper case (30_encoding.md R71). -/
def readMnemonic (cs : List Char) : Option Mnemonic :=
  if cs = ['S', 'E', 'E', 'D'] then some .seed
  else if cs = ['N', 'E', 'X', 'T'] then some .next
  else if cs = ['T', 'E', 'M', 'P', 'E', 'R'] then some .temper
  else if cs = ['U', 'N', 'T', 'E', 'M', 'P', 'E', 'R'] then some .untemper
  else if cs = ['C', 'L', 'B'] then some .clb
  else if cs = ['C', 'L', 'P'] then some .clp
  else if cs = ['R', 'D', 'S', 'T', 'A', 'T'] then some .rdstat
  else none

/-- A line as its tokens say (30_encoding.md R71, R72). -/
def readLine : List Token → Except AsmError AsmLine
  | [] => .ok .empty
  | .comma :: _ => .error .unknownMnemonic
  | .chars cs :: ts =>
    if cs = ['C', 'L', 'O', 'N', 'E'] then (readList ts).map .clone
    else if cs = ['.', 'w', 'o', 'r', 'd'] then readRaw ts
    else
      match readMnemonic cs with
      | none => .error .unknownMnemonic
      | some m => (readOperands ts).map (.command m)

/-- The command words of one line of text. -/
def assembleChars (cs : List Char) : Except AsmError (List Cmd) :=
  match readLine (tokenize [] cs) with
  | .error e => .error e
  | .ok l => assembleLine l

/-- The lines of a text. -/
def splitLines (acc : List Char) : List Char → List (List Char)
  | [] => [acc]
  | c :: cs => if c = '\n' then acc :: splitLines [] cs else splitLines (acc ++ [c]) cs

/-- The command words of several lines, in order; the first error stops the assembly. -/
def assembleAll : List (List Char) → Except AsmError (List Cmd)
  | [] => .ok []
  | l :: ls =>
    match assembleChars l with
    | .error e => .error e
    | .ok ws =>
      match assembleAll ls with
      | .error e => .error e
      | .ok rest => .ok (ws ++ rest)

/-- The command words of a text, one command per line (30_encoding.md R71). -/
def assembleText (text : String) : Except AsmError (List Cmd) := assembleAll (splitLines [] text.toList)

end Sys2Proof.Machine
end

