-- ==== Sys2Proof/Safety.lean ====
section
/-!
DEFINITION. The terms claims are stated in: the invariants of 10_state.md R27, the phases of 70_reset_and_hazards.md R201,
runs of command words as folds of the step (20_memory.md R48, 70_reset_and_hazards.md R208, R210), and what it means that
two states differ only in words no command can observe (10_state.md R24, R33, 93_implementation_defined.md U5).
-/

namespace Sys2Proof.Safety

open Sys2Proof.Machine

/-- The invariants of 10_state.md R27 on (VALID, LOADING, LCNT). That LCNT is at most 623 is in its type. -/
abbrev PhaseInv (s : State) : Prop :=
  (s.valid = true → s.loading = false) ∧ (s.loading = false → s.lcnt = 0)

/-- The triple (VALID, LOADING, LCNT) (10_state.md R27). -/
def triple (s : State) : Bool × Bool × Nat := (s.valid, s.loading, s.lcnt.val)

/-- The triple is *empty* (10_state.md R27). -/
abbrev PhaseEmpty (s : State) : Prop := triple s = (false, false, 0)

/-- The triple is *running* (10_state.md R27). -/
abbrev PhaseRunning (s : State) : Prop := triple s = (true, false, 0)

/-- The triple is *loading*, with k words pushed so far (10_state.md R27). -/
abbrev PhaseLoading (k : Nat) (s : State) : Prop := triple s = (false, true, k)

/-- The step answers a next state. -/
abbrev Continues (s : State) : Prop := ∃ t, step s = .next t

/-- The host presents the command words ws, one after the other, and nothing else. -/
def feed (ws : List Cmd) (s : State) : State := s.withInput (ws.map .command)

/-- The run of the command words ws from s: one step per word (70_reset_and_hazards.md R208, R210). -/
def runWords (ws : List Cmd) (s : State) : Host.Outcome State Fault Refusal :=
  Host.Core.run Sys2Proof.core ws.length (feed ws s)

/-- The word is a SEED command (opcode 0x01, 30_encoding.md R62). -/
def isSeed (w : Cmd) : Bool := w.extractLsb' 32 8 == 0x01#8

/-- The word is a CLP command (opcode 0x06, 30_encoding.md R62). -/
def isClp (w : Cmd) : Bool := w.extractLsb' 32 8 == 0x06#8

/-- The word of the command NEXT (30_encoding.md R62). -/
def nextWord : Cmd := 0x0200000000#40

/-- The word of the command CLB (30_encoding.md R62). -/
def clbWord : Cmd := 0x0500000000#40

/-- The word of the command CLP y (30_encoding.md R62). -/
def clpWord (y : Word) : Cmd := 0x06#8 ++ y

/-- The word of the command SEED v (30_encoding.md R62). -/
def seedWord (v : Word) : Cmd := 0x01#8 ++ v

/-- The word of the command RDSTAT (30_encoding.md R62). -/
def rdstatWord : Cmd := 0x0700000000#40

/-- The operands of the CLP words among ws, in order. -/
def pushes (ws : List Cmd) : List Word := (ws.filter isClp).map (·.extractLsb' 0 32)

/-- The data words of the responses to the NEXT commands among ws, in order; rs are the responses to ws. -/
def nextData (ws : List Cmd) (rs : List Rsp) : List Word :=
  ((ws.zip rs).filter (·.1 == nextWord)).map (fun p => p.2.extractLsb' 0 32)

/-- Two states that differ at most in words of the window which no command can observe: while VALID = 0 only the words
below LCNT of a load in progress count (10_state.md R24, R33). -/
def SameButUnread (s t : State) : Prop :=
  s.valid = t.valid ∧ s.loading = t.loading ∧ s.lcnt = t.lcnt ∧ s.err = t.err ∧
  s.input = t.input ∧ s.output = t.output ∧ s.resets = t.resets ∧
  (s.valid = true → s.mt = t.mt) ∧
  (s.loading = true → ∀ (i : Nat) (h : i < 624), i < s.lcnt.val → s.mt[i] = t.mt[i])

end Sys2Proof.Safety
end

