-- ==== Sys2Proof/Certificates/Slice0/Obligations.lean ====
section
/-!
DEFINITION. The statements for the provers. Each says which rules of spec/ it formalises. Command and response words,
masks and constants are written out as the spec prints them. `resets` is the model's own counter (log entry 2).
-/

open Sys2Proof Sys2Proof.Machine Sys2Proof.Safety

/-! ## Encoding and decoding -/

/-- 30_encoding.md R62: a word is the command of a row exactly when `(w and mask) = match`, with the operand its low 32
bits, and no word matches two rows. -/
def Obligations.DecodeIsTheOpcodeMap : Prop :=
  (∀ w : Cmd,
    (∀ v, decode w = .ok (.seed v) ↔ w &&& 0xFF00000000#40 = 0x0100000000#40 ∧ v = w.extractLsb' 0 32) ∧
    (decode w = .ok .next ↔ w &&& 0xFFFFFFFFFF#40 = 0x0200000000#40) ∧
    (∀ x, decode w = .ok (.temper x) ↔ w &&& 0xFF00000000#40 = 0x0300000000#40 ∧ x = w.extractLsb' 0 32) ∧
    (∀ y, decode w = .ok (.untemper y) ↔ w &&& 0xFF00000000#40 = 0x0400000000#40 ∧ y = w.extractLsb' 0 32) ∧
    (decode w = .ok .clb ↔ w &&& 0xFFFFFFFFFF#40 = 0x0500000000#40) ∧
    (∀ y, decode w = .ok (.clp y) ↔ w &&& 0xFF00000000#40 = 0x0600000000#40 ∧ y = w.extractLsb' 0 32) ∧
    (decode w = .ok .rdstat ↔ w &&& 0xFFFFFFFFFF#40 = 0x0700000000#40)) ∧
  opcodeMap.Pairwise (fun a b => ∀ w, ¬(a.covers w = true ∧ b.covers w = true))

/-- 30_encoding.md R66: decoding by the two fields of the word. -/
def Obligations.DecodeByFields : Prop :=
  ∀ (op : BitVec 8) (arg : Word),
    match op.toNat with
    | 1 => decode (op ++ arg) = .ok (.seed arg)
    | 2 => if arg = 0#32 then decode (op ++ arg) = .ok .next else ∃ why, decode (op ++ arg) = .error why
    | 3 => decode (op ++ arg) = .ok (.temper arg)
    | 4 => decode (op ++ arg) = .ok (.untemper arg)
    | 5 => if arg = 0#32 then decode (op ++ arg) = .ok .clb else ∃ why, decode (op ++ arg) = .error why
    | 6 => decode (op ++ arg) = .ok (.clp arg)
    | 7 => if arg = 0#32 then decode (op ++ arg) = .ok .rdstat else ∃ why, decode (op ++ arg) = .error why
    | _ => ∃ why, decode (op ++ arg) = .error why

/-- Decoding an encoded well-formed command gives it back, and a word decodes only to the command that encodes to it
(30_encoding.md R60 to R63). -/
def Obligations.DecodeEncodeRoundTrip : Prop :=
  ∀ i : Instr, i.wellFormed = true → decode (encode i) = .ok i ∧ ∀ w, decode w = .ok i → w = encode i

/-- 30_encoding.md R64: of the 2^40 words, 4 * 2^32 + 3 are commands. -/
def Obligations.CommandWordCount : Prop :=
  Nat.card { w : Cmd // ∃ i, decode w = .ok i } = 4 * 2 ^ 32 + 3

/-- Words written out in 95_test_vectors.md V6, P1 and P2: seven decode to the commands they stand for, and two are no
commands. That the spec's rules make these two illegal is 30_encoding.md R64; the reason the last two clauses name,
`.reservedOperand` or `.reservedOpcode`, is the MODEL's choice (log entry 13): the spec names no reasons. -/
def Obligations.SampleWordsDecode : Prop :=
  decode 0x0100007A69#40 = .ok (.seed 31337#32) ∧ decode 0x0200000000#40 = .ok .next ∧
  decode 0x0300000001#40 = .ok (.temper 1#32) ∧ decode 0x04B8CB4CB7#40 = .ok (.untemper 0xB8CB4CB7#32) ∧
  decode 0x0500000000#40 = .ok .clb ∧ decode 0x06CF7B1A1F#40 = .ok (.clp 0xCF7B1A1F#32) ∧
  decode 0x0700000000#40 = .ok .rdstat ∧ decode 0x0200000001#40 = .error (.reservedOperand 2#8 1#32) ∧
  decode 0xFF12345678#40 = .error (.reservedOpcode 0xFF#8)

/-! ## The step, the ports and reset -/

/-- A step whose next event is a command word that decodes to i is `exec i` on the state with that event taken
(30_encoding.md R70, 70_reset_and_hazards.md R210). The second clause is about `withFetchWord`, which is the MODEL's
device and no rule of the spec (log entry 7): it stands for the host presenting that one word. -/
def Obligations.StepRunsDecodedCommand : Prop :=
  (∀ (s : State) (w : Cmd) (rest : List Event) (i : Instr),
    s.input = .command w :: rest → decode w = .ok i → step s = exec i (s.withInput rest)) ∧
  (∀ (s : State) (w : Nat) (i : Instr),
    decode (BitVec.ofNat 40 w) = .ok i → step (s.withFetchWord 40 w) = exec i s)

/-- With no event pending the core waits and nothing changes. This is the MODEL's choice (log entry 4): the spec says the
core "simply waits for the next command" (60_exceptions.md R177) and has no enabled step (70_reset_and_hazards.md R210). -/
def Obligations.IdleCoreWaits : Prop := ∀ s : State, s.input = [] → step s = .next s

/-- 10_state.md R33, the values the spec gives: the flags and the counter are 0 and STATUS reads 0x00000000. The empty
ports are the model's choice (log entries 3 and 5). -/
def Obligations.ResetStateValues : Prop :=
  State.reset.valid = false ∧ State.reset.loading = false ∧ State.reset.lcnt = 0 ∧ State.reset.err = false ∧
  statusWord State.reset = 0x00000000#32 ∧ State.reset.input = [] ∧ State.reset.output = []

/-- 70_reset_and_hazards.md R200: a reset event, whatever command word was executing or offered when it came, clears the
flags and the counter, produces no response, and leaves the responses already given and the later events alone. The
abandoned word makes no difference; that the event carries it is the model's form of the rule (log entry 6). -/
def Obligations.ResetEventClearsState : Prop :=
  ∀ (s : State) (inFlight : Option Cmd) (rest : List Event), s.input = .reset inFlight :: rest →
    ∃ t, step s = .next t ∧ t.valid = false ∧ t.loading = false ∧ t.lcnt = 0 ∧ t.err = false ∧
      statusWord t = 0x00000000#32 ∧ t.input = rest ∧ t.output = s.output ∧
      step { s with input := .reset none :: rest } = .next t

/-- 10_state.md R34: there is no default seed; a core that has been reset and then sent NEXT answers ERR_PRECOND. -/
def Obligations.NoDefaultSeed : Prop :=
  ∀ (s : State) (inFlight : Option Cmd) (rest : List Event),
    s.input = .reset inFlight :: .command 0x0200000000#40 :: rest →
    ∃ t, Host.Core.run Sys2Proof.core 2 s = .next t ∧ t.output = s.output ++ [0x0200000000#40] ∧ t.valid = false

/-- 30_encoding.md R67 and R68: every command word, legal or not, gets exactly one response word; its status is 0x00
when the command executed, 0x01 when the word is no command, 0x02 when the state does not allow it, and nothing else. -/
def Obligations.OneResponsePerCommand : Prop :=
  ∀ (s : State) (w : Cmd) (rest : List Event), s.input = .command w :: rest →
    ∃ t r, step s = .next t ∧ t.input = rest ∧ t.output = s.output ++ [r] ∧
      ((r.extractLsb' 32 8 = 0x00#8 ∧ ∃ i, decode w = .ok i ∧
          ¬(i = .next ∧ s.valid = false) ∧ ¬∃ y, i = .clp y ∧ s.loading = false) ∨
       (r.extractLsb' 32 8 = 0x01#8 ∧ ∃ why, decode w = .error why) ∨
       (r.extractLsb' 32 8 = 0x02#8 ∧
          ((decode w = .ok .next ∧ s.valid = false) ∨ ∃ y, decode w = .ok (.clp y) ∧ s.loading = false)))

/-- Nothing stops the core: every step of every state answers a next state (60_exceptions.md R174: "it never stops the
core, locks the port or needs a reset"; for a state with no event pending, the model's choice of log entry 4). -/
def Obligations.CoreNeverStops : Prop := ∀ s : State, Continues s

/-- 20_memory.md R48, 30_encoding.md R70: the run of a sequence of events is the left fold of the single steps, each taken
with that event alone on the port. -/
def Obligations.RunIsFoldOfSteps : Prop :=
  ∀ (es : List Event) (s : State),
    Host.Core.run Sys2Proof.core es.length (s.withInput es) =
      es.foldl (fun o e => match o with
        | .next u => step (u.withInput [e])
        | .fault r => .fault r
        | .refused r => .refused r) (.next (s.withInput []))

/-- 70_reset_and_hazards.md R208: a run of command words and resets, of any length, comes to its end with one response per
command word not abandoned by a reset, after those given before. -/
def Obligations.RunAnswersEveryCommand : Prop :=
  ∀ (es : List Event) (s : State),
    ∃ t rs, Host.Core.run Sys2Proof.core es.length (s.withInput es) = .next t ∧ t.input = [] ∧
      t.output = s.output ++ rs ∧
      rs.length = (es.filter (fun e => match e with | .command _ => true | .reset _ => false)).length

/-! ## Errors -/

/-- 30_encoding.md R64: a word that is no command gets the response {0x01, 0x00000000}, sets ERR and changes nothing
else. -/
def Obligations.IllegalWordSetsErrOnly : Prop :=
  ∀ (s : State) (op : BitVec 8) (arg : Word) (rest : List Event), s.input = .command (op ++ arg) :: rest →
    (op = 0x00#8 ∨ 8 ≤ op.toNat ∨ ((op = 0x02#8 ∨ op = 0x05#8 ∨ op = 0x07#8) ∧ arg ≠ 0#32)) →
    step s = .next { s with input := rest, err := true, output := s.output ++ [0x0100000000#40] }

/-- 60_exceptions.md R172: ERR_ILLEGAL is raised exactly when the word matches no row of the opcode map. -/
def Obligations.ErrIllegalExactly : Prop :=
  ∀ (s : State) (op : BitVec 8) (arg : Word) (rest : List Event), s.input = .command (op ++ arg) :: rest →
    ∃ t r, step s = .next t ∧ t.output = s.output ++ [r] ∧
      (r.extractLsb' 32 8 = 0x01#8 ↔
        op = 0x00#8 ∨ 8 ≤ op.toNat ∨ ((op = 0x02#8 ∨ op = 0x05#8 ∨ op = 0x07#8) ∧ arg ≠ 0#32)) ∧
      (r.extractLsb' 32 8 = 0x01#8 ↔ opcodeMap.all (fun row => !row.covers (op ++ arg)) = true)

/-- 60_exceptions.md R173: ERR_PRECOND is raised exactly by NEXT while VALID = 0 and by CLP while LOADING = 0. -/
def Obligations.ErrPrecondExactly : Prop :=
  ∀ (s : State) (w : Cmd) (rest : List Event), s.input = .command w :: rest →
    ∃ t r, step s = .next t ∧ t.output = s.output ++ [r] ∧
      (r.extractLsb' 32 8 = 0x02#8 ↔
        (w = 0x0200000000#40 ∧ s.valid = false) ∨ (w.extractLsb' 32 8 = 0x06#8 ∧ s.loading = false))

/-- 60_exceptions.md R177, R178: a command that ends in an error sets ERR, answers {code, 0x00000000} and does nothing
else: no state is saved, no later command has started. -/
def Obligations.ErrorsArePrecise : Prop :=
  ∀ (s t : State) (w : Cmd) (rest : List Event) (r : Rsp), s.input = .command w :: rest → step s = .next t →
    t.output = s.output ++ [r] → r.extractLsb' 32 8 ≠ 0x00#8 →
    r = (r.extractLsb' 32 8 : BitVec 8) ++ 0x00000000#32 ∧
    t = { s with input := rest, err := true, output := s.output ++ [r] }

/-- 10_state.md R26: every error sets ERR and nothing but a reset clears it; ERR has no effect on any command, apart
from bit 2 of the value RDSTAT returns. -/
def Obligations.ErrIsSticky : Prop :=
  (∀ (s : State) (w : Cmd) (rest : List Event), s.input = .command w :: rest →
    ∃ t r, step s = .next t ∧ t.output = s.output ++ [r] ∧ (t.err = true ↔ s.err = true ∨ r.extractLsb' 32 8 ≠ 0x00#8)) ∧
  (∀ (s : State) (inFlight : Option Cmd) (rest : List Event), s.input = .reset inFlight :: rest →
    ∃ t, step s = .next t ∧ t.err = false) ∧
  (∀ (s t : State) (w : Cmd) (rest : List Event), s.input = .command w :: rest → w ≠ 0x0700000000#40 → s.err = false →
    step s = .next t → step { s with err := true } = .next { t with err := true }) ∧
  (∀ (s t : State) (rest : List Event) (r : Rsp), s.input = .command 0x0700000000#40 :: rest → s.err = false →
    step s = .next t → t.output = s.output ++ [r] →
    step { s with err := true } = .next { t with err := true, output := s.output ++ [r ||| 0x0000000004#40] })

/-! ## Invariants -/

/-- 10_state.md R27: the invariants on (VALID, LOADING, LCNT) hold after reset and after every command, the triple is then
one of empty, running and loading, and ERR, once 1, stays 1 until reset. -/
def Obligations.PhaseInvariantKept : Prop :=
  (∀ s t : State, PhaseInv s → step s = .next t → PhaseInv t) ∧
  (∀ (s t : State) (inFlight : Option Cmd) (rest : List Event),
    s.input = .reset inFlight :: rest → step s = .next t → PhaseInv t) ∧
  (∀ s : State, PhaseInv s ↔ PhaseEmpty s ∨ PhaseRunning s ∨ ∃ k, k ≤ 623 ∧ PhaseLoading k s) ∧
  (∀ s t : State, s.err = true → step s = .next t →
    t.err = true ∨ ∃ inFlight rest, s.input = .reset inFlight :: rest)

/-- The invariants of 10_state.md R27 hold at State.reset. -/
def Obligations.ResetMeetsPhaseInvariant : Prop := PhaseInv State.reset ∧ PhaseEmpty State.reset

/-- 70_reset_and_hazards.md R201: the transitions of (VALID, LOADING, LCNT), from every state that meets the invariants of
10_state.md R27. -/
def Obligations.PhaseTransitions : Prop :=
  (∀ (s t : State) (w : Cmd) (rest : List Event), PhaseInv s → s.input = .command w :: rest → step s = .next t →
    (isSeed w = true → PhaseRunning t) ∧
    (w = 0x0500000000#40 → PhaseLoading 0 t) ∧
    (w = 0x0200000000#40 → PhaseRunning s → PhaseRunning t) ∧
    (∀ k, k < 623 → PhaseLoading k s → isClp w = true → PhaseLoading (k + 1) t) ∧
    (PhaseLoading 623 s → isClp w = true → PhaseRunning t) ∧
    (isSeed w = false → w ≠ 0x0500000000#40 → (isClp w = false ∨ s.loading = false) → triple t = triple s) ∧
    (PhaseEmpty t → PhaseEmpty s) ∧ (s.err = true → t.err = true)) ∧
  (∀ (s t : State) (inFlight : Option Cmd) (rest : List Event), s.input = .reset inFlight :: rest → step s = .next t →
    PhaseEmpty t ∧ t.err = false)

/-! ## SEED -/

/-- 40_seed.md R90: SEED v completes in every state, with the seeding recurrence in the window, VALID 1, LOADING 0,
LCNT 0, the response {0x00, 0x00000000}, and nothing else changed; with the rule's example. -/
def Obligations.SeedFillsWindow : Prop :=
  (∀ (s : State) (v : Word), decode (0x01#8 ++ v) = .ok (.seed v) ∧
    ∃ t, exec (.seed v) s = .next t ∧ t.mt[0] = v ∧
      (∀ (i : Nat) (h : i < 623),
        t.mt[i + 1] = 1812433253#32 * (t.mt[i] ^^^ (t.mt[i] >>> 30)) + BitVec.ofNat 32 (i + 1)) ∧
      t.valid = true ∧ t.loading = false ∧ t.lcnt = 0 ∧ t.err = s.err ∧
      t.output = s.output ++ [0x0000000000#40] ∧ t.input = s.input ∧ t.resets = s.resets) ∧
  (∀ s t : State, exec (.seed 31337#32) s = .next t →
    t.mt[0] = 0x00007A69#32 ∧ t.mt[1] = 0xE6917C6E#32 ∧ t.mt[2] = 0x35F76C03#32 ∧ t.mt[623] = 0x811D34FE#32)

/-- 40_seed.md R92: SEED is a pure function of the seed, except ERR; twice is once; the map from seeds to states is
injective; every word depends only on the word before it. -/
def Obligations.SeedIsPure : Prop :=
  (∀ (s s' t t' : State) (v : Word), exec (.seed v) s = .next t → exec (.seed v) s' = .next t' →
    t.mt = t'.mt ∧ triple t = triple t' ∧ t.err = s.err) ∧
  (∀ (s t : State) (v : Word), exec (.seed v) s = .next t →
    exec (.seed v) t = .next { t with output := t.output ++ [0x0000000000#40] }) ∧
  (∀ (s s' t t' : State) (v v' : Word), exec (.seed v) s = .next t → exec (.seed v') s' = .next t' →
    t.mt = t'.mt → v = v') ∧
  (∀ (s s' t t' : State) (v v' : Word) (i : Nat) (h : i < 623), exec (.seed v) s = .next t →
    exec (.seed v') s' = .next t' → t.mt[i] = t'.mt[i] → t.mt[i + 1] = t'.mt[i + 1]) ∧
  (∀ (s t : State) (v : Word), exec (.seed v) s = .next t → t.mt[0] = v)

/-! ## NEXT -/

/-- 41_next.md R103: the new word is twist(y) xor MT[397] read before the advance; every other word moves one position
toward the front; the new word is at position 623; it is computed from positions 0, 1 and 397 alone. NEXT completes
whenever VALID = 1, answers {0x00, temper(new word)} and changes nothing else. -/
def Obligations.NextAdvancesWindow : Prop :=
  (∀ s : State, s.valid = true →
    ∃ t, exec .next s = .next t ∧
      (∀ (i : Nat) (h : i < 623), t.mt[i] = s.mt[i + 1]) ∧
      (let y := (s.mt[0] &&& 0x80000000#32) ||| (s.mt[1] &&& 0x7FFFFFFF#32)
       t.mt[623] = ((y >>> 1) ^^^ (if y.getLsbD 0 then 0x9908B0DF#32 else 0#32)) ^^^ s.mt[397]) ∧
      t.output = s.output ++ [0x00#8 ++ temper t.mt[623]] ∧
      t.valid = true ∧ t.loading = s.loading ∧ t.lcnt = s.lcnt ∧ t.err = s.err ∧ t.input = s.input ∧
      t.resets = s.resets) ∧
  (∀ s s' t t' : State, s.valid = true → s'.valid = true → s.mt[0] = s'.mt[0] → s.mt[1] = s'.mt[1] →
    s.mt[397] = s'.mt[397] → exec .next s = .next t → exec .next s' = .next t' → t.mt[623] = t'.mt[623])

/-- 41_next.md R101: y takes bit 31 from the front word and bits 30 to 0 from the following word; bits 30 to 0 of MT[0]
and bit 31 of MT[1] do not enter the new word. -/
def Obligations.NextReadsOneFrontBit : Prop :=
  (∀ (a b : Word) (i : Nat), i < 32 → (combine a b).getLsbD i = if i = 31 then a.getLsbD 31 else b.getLsbD i) ∧
  (∀ s s' t t' : State, s.valid = true → s'.valid = true → s.mt[0].getLsbD 31 = s'.mt[0].getLsbD 31 →
    (∀ i, i < 31 → s.mt[1].getLsbD i = s'.mt[1].getLsbD i) → s.mt[397] = s'.mt[397] →
    exec .next s = .next t → exec .next s' = .next t' → t.mt[623] = t'.mt[623])

/-- 41_next.md R102: the shift is applied always, the constant only if bit 0 of y was 1; so bit 31 of twist(y) is y[0]. That
twist is one-to-one is an inference from the rule's formula, not the rule's own sentence. -/
def Obligations.TwistIsInjective : Prop :=
  (∀ y : Word, twist y = (y >>> 1) ^^^ (if y.getLsbD 0 then 0x9908B0DF#32 else 0x00000000#32)) ∧
  (∀ y : Word, (twist y).getLsbD 31 = y.getLsbD 0) ∧ Function.Injective twist

/-- 41_next.md R100: NEXT while VALID = 0 reads and writes no state word, sets ERR and answers {0x02, 0x00000000}. -/
def Obligations.NextRefusedWithoutState : Prop :=
  ∀ s : State, s.valid = false →
    exec .next s = .next { s with err := true, output := s.output ++ [0x0200000000#40] }

/-- 41_next.md R108: a valid state of 624 zero words stays so, and every output is 0. -/
def Obligations.ZeroStateStaysZero : Prop :=
  ∀ (n : Nat) (s : State), s.valid = true → (∀ (i : Nat) (h : i < 624), s.mt[i] = 0#32) →
    ∃ t, runWords (List.replicate n 0x0200000000#40) s = .next t ∧ t.mt = s.mt ∧
      t.output = s.output ++ List.replicate n 0x0000000000#40

/-- 41_next.md R105: after 624 successive NEXT from any valid state the window is the 624 new words in the order they were
produced, and the 624 responses are their tempered values. -/
def Obligations.NextsReplaceTheWindow : Prop :=
  ∀ s : State, s.valid = true →
    ∃ t, runWords (List.replicate 624 0x0200000000#40) s = .next t ∧
      (∃ rs, t.output = s.output ++ rs ∧ rs = t.mt.toList.map (fun w => 0x00#8 ++ temper w)) ∧
      (∀ (k : Nat) (h : k < 624),
        ∃ u, runWords (List.replicate (k + 1) 0x0200000000#40) s = .next u ∧ u.mt[623] = t.mt[k])

/-- 41_next.md R106, the recurrence form: from any valid state there is one sequence x with x_i = MT[i] for i < 624 that
obeys the recurrence, is the window at every later time, and whose tempered words are the outputs. -/
def Obligations.NextFollowsRecurrence : Prop :=
  ∀ s : State, s.valid = true →
    ∃ x : Nat → Word, (∀ (i : Nat) (h : i < 624), x i = s.mt[i]) ∧
      (∀ k, x (k + 624) =
        x (k + 397) ^^^ twist ((x k &&& 0x80000000#32) ||| (x (k + 1) &&& 0x7FFFFFFF#32))) ∧
      (∀ n, ∃ t, runWords (List.replicate n 0x0200000000#40) s = .next t ∧
        (∀ (i : Nat) (h : i < 624), t.mt[i] = x (n + i)) ∧
        t.output = s.output ++ (List.range n).map (fun k => 0x00#8 ++ temper (x (k + 624))))

/-! ## TEMPER and UNTEMPER -/

/-- 42_temper.md R120, R123: TEMPER x completes in every state with the response {0x00, temper(x)}, temper being the four
stages in order, and writes no state; with the rules' examples. -/
def Obligations.TemperAnswersFourStages : Prop :=
  (∀ (s : State) (x : Word), decode (0x03#8 ++ x) = .ok (.temper x) ∧
    (let y1 := x ^^^ (x >>> 11)
     let y2 := y1 ^^^ ((y1 <<< 7) &&& 0x9D2C5680#32)
     let y3 := y2 ^^^ ((y2 <<< 15) &&& 0xEFC60000#32)
     let y4 := y3 ^^^ (y3 >>> 18)
     exec (.temper x) s = .next { s with output := s.output ++ [0x00#8 ++ y4] } ∧ temper x = y4)) ∧
  temper 0x8DB8D71F#32 = 0xB8CB4CB7#32 ∧ temper 0x00000001#32 = 0x00400091#32

/-- 42_temper.md R127: UNTEMPER y completes in every state with the response {0x00, x}, x being the one word that TEMPER
takes to y, and writes no state; with the rule's example. -/
def Obligations.UntemperAnswersTheInverse : Prop :=
  (∀ (s : State) (y : Word), decode (0x04#8 ++ y) = .ok (.untemper y) ∧
    ∃ x, exec (.untemper y) s = .next { s with output := s.output ++ [0x00#8 ++ x] } ∧ x = untemper y ∧
      exec (.temper x) s = .next { s with output := s.output ++ [0x00#8 ++ y] }) ∧
  untemper 0xB8CB4CB7#32 = 0x8DB8D71F#32

/-- 42_temper.md R124: untemper is the two-sided inverse of temper, on all 2^32 words. -/
def Obligations.UntemperInvertsTemper : Prop :=
  (∀ x z : Word, temper x = z ↔ untemper z = x) ∧ (∀ z : Word, untemperMatrix z = untemper z)

/-- 42_temper.md R122: temper is a bijection, linear over GF(2), and each stage with a shift of at least 1 is by itself a
bijection. -/
def Obligations.TemperIsLinearBijection : Prop :=
  (∀ a b : Word, temper (a ^^^ b) = temper a ^^^ temper b) ∧ temper 0#32 = 0#32 ∧ Function.Bijective temper ∧
  (∀ k : Nat, 1 ≤ k → k ≤ 31 → Function.Bijective (stageRight k) ∧ ∀ m, Function.Bijective (stageLeft k m))

/-- 42_temper.md R126: bit i of untemper(z) is the parity of z and U[i], bit j of U[i] is bit i of untemper(1 << j), and
untemper(z) is the xor of the columns untemper(1 << j) of the bits set in z. -/
def Obligations.UntemperMatrixForm : Prop :=
  (∀ (z : Word) (i : Nat) (h : i < untemperRows.length), (untemper z).getLsbD i = parity (z &&& untemperRows[i])) ∧
  (∀ z : Word, untemperMatrix z = untemper z ∧ columnsApply untemperCols z = untemper z) ∧
  untemperRows.length = 32 ∧ untemperCols.length = 32 ∧
  (∀ (j : Nat) (h : j < untemperCols.length), untemperCols[j] = untemper (1#32 <<< j)) ∧
  (∀ (i j : Nat) (h : i < untemperRows.length), j < 32 →
    untemperRows[i].getLsbD j = (untemper (1#32 <<< j)).getLsbD i)

/-- 42_temper.md R129: bit i of temper(x) is the parity of x and T[i], and the two matrices are inverse to each other. -/
def Obligations.TemperMatrixForm : Prop :=
  temperRows.length = 32 ∧
  (∀ (x : Word) (i : Nat) (h : i < temperRows.length), (temper x).getLsbD i = parity (x &&& temperRows[i])) ∧
  (∀ x : Word, temperMatrix x = temper x) ∧
  (∀ x : Word, untemperMatrix (temperMatrix x) = x ∧ temperMatrix (untemperMatrix x) = x)

/-! ## CLB and CLP -/

/-- 43_clone.md R140: CLB completes in every state: VALID 0, LOADING 1, LCNT 0, the response {0x00, 0x00000000}, and no
word of MT or anything else is written; with a non-zero operand the word is no command; with the rule's example. -/
def Obligations.ClbBeginsLoad : Prop :=
  decode 0x0500000000#40 = .ok .clb ∧ (∀ arg : Word, arg ≠ 0#32 → ∃ why, decode (0x05#8 ++ arg) = .error why) ∧
  (∀ s : State, exec .clb s =
    .next { s with valid := false, loading := true, lcnt := 0, output := s.output ++ [0x0000000000#40] }) ∧
  (∀ s : State, s.err = false → ∃ t, runWords [0x0100000001#40, 0x0500000000#40, 0x0700000000#40] s = .next t ∧
    t.output = s.output ++ [0x0000000000#40, 0x0000000000#40, 0x0000000002#40])

/-- 43_clone.md R141: CLP y completes whenever LOADING = 1: untemper(y) goes to position LCNT and no other word changes;
the response is the count 1 to 624; the 624th completes the load; nothing else changes. While LOADING = 0 it writes
nothing but ERR and answers {0x02, 0x00000000}. With the rule's example. -/
def Obligations.ClpLoadsOneWord : Prop :=
  (∀ y : Word, decode (0x06#8 ++ y) = .ok (.clp y)) ∧
  (∀ (s : State) (y : Word), s.loading = true →
    ∃ t, exec (.clp y) s = .next t ∧
      (∀ (i : Nat) (h : i < 624), t.mt[i] = if i = s.lcnt.val then untemper y else s.mt[i]) ∧
      t.output = s.output ++ [0x00#8 ++ BitVec.ofNat 32 (s.lcnt.val + 1)] ∧
      (if s.lcnt.val + 1 = 624 then t.lcnt = 0 ∧ t.loading = false ∧ t.valid = true
       else t.lcnt.val = s.lcnt.val + 1 ∧ t.loading = true ∧ t.valid = s.valid) ∧
      t.err = s.err ∧ t.input = s.input ∧ t.resets = s.resets) ∧
  (∀ (s : State) (y : Word), s.loading = false →
    exec (.clp y) s = .next { s with err := true, output := s.output ++ [0x0200000000#40] }) ∧
  (∀ s : State, ∃ t, runWords [0x0500000000#40, 0x06B8CB4CB7#40] s = .next t ∧ t.mt[0] = 0x8DB8D71F#32 ∧
    t.lcnt.val = 1 ∧ t.output = s.output ++ [0x0000000000#40, 0x0000000001#40])

/-- 10_state.md R24: from a CLB on, while no SEED, CLB or reset intervenes and fewer than 624 words were pushed, LOADING
is 1, positions 0 to LCNT - 1 hold the untempered words pushed so far, and the other positions hold what they held. -/
def Obligations.LoadInProgress : Prop :=
  ∀ (s : State) (ws : List Cmd), (∀ w ∈ ws, isSeed w = false ∧ w ≠ 0x0500000000#40) → (pushes ws).length ≤ 623 →
    ∃ t, runWords (0x0500000000#40 :: ws) s = .next t ∧ t.loading = true ∧ t.valid = false ∧
      t.lcnt.val = (pushes ws).length ∧
      (∀ (i : Nat) (h : i < (pushes ws).length) (h' : i < 624), t.mt[i] = untemper (pushes ws)[i]) ∧
      (∀ (i : Nat) (h : i < 624), (pushes ws).length ≤ i → t.mt[i] = s.mt[i])

/-- 43_clone.md R142: CLB and 624 CLP, with any other commands but SEED and CLB among them, leave
MT[k] = untemper(y_k), VALID 1, LOADING 0, LCNT 0; a 625th CLP is refused without touching the new state. -/
def Obligations.CompleteLoad : Prop :=
  ∀ (s : State) (ws : List Cmd) (y y' : Word), (∀ w ∈ ws, isSeed w = false ∧ w ≠ 0x0500000000#40) →
    (pushes ws).length = 623 →
    ∃ t, runWords (0x0500000000#40 :: (ws ++ [0x06#8 ++ y])) s = .next t ∧
      t.mt.toList = (pushes ws ++ [y]).map untemper ∧ t.valid = true ∧ t.loading = false ∧ t.lcnt = 0 ∧
      runWords [0x06#8 ++ y'] t = .next { t with err := true, output := t.output ++ [0x0200000000#40] }

/-- 43_clone.md R143, the guarantee: 624 consecutive outputs of a generator g, pushed in order into any core c, give c the
state g then has, and every later NEXT of the two returns the same. -/
def Obligations.CloneGuarantee : Prop :=
  ∀ g c : State, g.valid = true →
    ∃ g' c' rs, runWords (List.replicate 624 0x0200000000#40) g = .next g' ∧ g'.output = g.output ++ rs ∧
      runWords (0x0500000000#40 :: rs.map (fun r => 0x06#8 ++ (r.extractLsb' 0 32 : Word))) c = .next c' ∧
      c'.mt = g'.mt ∧ PhaseRunning c' ∧
      ∀ n, ∃ g'' c'' os, runWords (List.replicate n 0x0200000000#40) g' = .next g'' ∧
        runWords (List.replicate n 0x0200000000#40) c' = .next c'' ∧ os.length = n ∧
        g''.output = g'.output ++ os ∧ c''.output = c'.output ++ os

/-- 43_clone.md R146: CLP y writes the word that UNTEMPER y returns, and every window can be loaded, by pushing
temper(r) for each of its words r. -/
def Obligations.EveryWindowIsLoadable : Prop :=
  (∀ (s t u : State) (y : Word), s.loading = true → exec (.clp y) s = .next t → exec (.untemper y) s = .next u →
    u.output = s.output ++ [0x00#8 ++ t.mt[s.lcnt.val]]) ∧
  (∀ (c : State) (target : Window),
    ∃ t, runWords (0x0500000000#40 :: target.toList.map (fun r => 0x06#8 ++ temper r)) c = .next t ∧
      t.mt = target ∧ PhaseRunning t)

/-! ## RDSTAT and what the state determines -/

/-- 10_state.md R29, 44_status.md R160: RDSTAT completes in every state, answers STATUS and writes nothing; bit 0 is VALID,
bit 1 LOADING, bit 2 ERR, bits 25:16 LCNT, the rest 0. -/
def Obligations.RdstatAnswersStatus : Prop :=
  ∀ s : State, ∃ d : Word, exec .rdstat s = .next { s with output := s.output ++ [0x00#8 ++ d] } ∧
    d.getLsbD 0 = s.valid ∧ d.getLsbD 1 = s.loading ∧ d.getLsbD 2 = s.err ∧
    d.extractLsb' 3 13 = 0#13 ∧ (d.extractLsb' 16 10).toNat = s.lcnt.val ∧ d.extractLsb' 26 6 = 0#6

/-- 10_state.md R29: in a state that meets the invariants of R27, STATUS is 0 or 1, or (k << 16) or 2 for some k up to
623, or one of those with bit 2 set, as ERR says. -/
def Obligations.StatusReachableValues : Prop :=
  ∀ s : State, PhaseInv s →
    ∃ e : Word, e = (if s.err then 4#32 else 0#32) ∧
      (statusWord s = 0#32 ||| e ∨ statusWord s = 1#32 ||| e ∨
        ∃ k, k ≤ 623 ∧ statusWord s = ((BitVec.ofNat 32 k <<< 16) ||| 2#32) ||| e)

/-- 44_status.md R161: of the 624 words, only the outputs of NEXT leave the core: every other command word gets a response
that does not depend on them. -/
def Obligations.OnlyNextRevealsWords : Prop :=
  ∀ (s t : State) (m : Window) (w : Cmd) (rest : List Event), s.input = .command w :: rest →
    w ≠ 0x0200000000#40 → step s = .next t →
    ∃ t', step { s with mt := m } = .next t' ∧ t'.output = t.output ∧ triple t' = triple t ∧ t'.err = t.err

/-- 70_reset_and_hazards.md R211, 10_state.md R33, 93_implementation_defined.md U5: words of the window that no command
can observe stay unobserved. Two states that differ only in such words answer the same, for ever. -/
def Obligations.UnreadWordsStayUnread : Prop :=
  ∀ (n : Nat) (s s' : State), SameButUnread s s' →
    ∃ t t', Host.Core.run Sys2Proof.core n s = .next t ∧ Host.Core.run Sys2Proof.core n s' = .next t' ∧
      SameButUnread t t'

/-- 10_state.md R31: the 624 words determine every future output. Two cores with VALID = 1 and equal windows give the
same data to the k-th NEXT, for every k, whatever their ERR and whatever commands other than SEED, CLB and CLP are
interleaved. -/
def Obligations.SameWordsSameOutputs : Prop :=
  ∀ (s s' : State) (ws ws' : List Cmd), s.valid = true → s'.valid = true → s.mt = s'.mt →
    (∀ w ∈ ws ++ ws', isSeed w = false ∧ w ≠ 0x0500000000#40 ∧ isClp w = false) →
    ∃ t t' rs rs', runWords ws s = .next t ∧ runWords ws' s' = .next t' ∧
      t.output = s.output ++ rs ∧ t'.output = s'.output ++ rs' ∧ rs.length = ws.length ∧ rs'.length = ws'.length ∧
      (nextData ws rs <+: nextData ws' rs' ∨ nextData ws' rs' <+: nextData ws rs)

/-! ## The host's side: byte order and assembler -/

/-- 20_memory.md R42: byte k of a word is bits 8k+7:8k and byte 0 is first; a stream may end inside a word, after its
bytes 0 upward; with the rule's example. -/
def Obligations.LittleEndianBytes : Prop :=
  (∀ (v : Word) (k : Nat) (h : k < (wordBytes v).length) (i : Nat), i < 8 →
    (wordBytes v)[k].getLsbD i = v.getLsbD (8 * k + i)) ∧
  (∀ v : Word, (wordBytes v).length = 4) ∧
  (∀ (vs : List Word) (v : Word) (j : Nat), j ≤ 4 →
    byteStream (vs ++ [v]) (4 * vs.length + j) = vs.flatMap wordBytes ++ (wordBytes v).take j) ∧
  wordBytes 0xB8CB4CB7#32 = [0xB7#8, 0x4C#8, 0xCB#8, 0xB8#8]

/-- 30_encoding.md R72: CLONE with exactly 624 operands in range is CLB and 624 CLP, 625 words that are all commands, in
order; any other count is an assembler error. -/
def Obligations.CloneExpands : Prop :=
  ∀ ys : List Nat,
    (ys.length = 624 → (∀ y ∈ ys, y < 4294967296) →
      assembleLine (.clone ys) = .ok (0x0500000000#40 :: ys.map (fun y => 0x06#8 ++ BitVec.ofNat 32 y)) ∧
      (0x0500000000#40 :: ys.map (fun y => (0x06#8 ++ BitVec.ofNat 32 y : Cmd))).length = 625 ∧
      ∀ s : State, ∃ t rs,
        runWords (0x0500000000#40 :: ys.map (fun y => 0x06#8 ++ BitVec.ofNat 32 y)) s = .next t ∧
        t.output = s.output ++ rs ∧ rs.length = 625) ∧
    (ys.length ≠ 624 → ∃ e, assembleLine (.clone ys) = .error e)

/-- 30_encoding.md R71: SEED, TEMPER, UNTEMPER and CLP take exactly one operand, in range; NEXT, CLB and RDSTAT take none
and get operand 0; anything else is an assembler error and no command. -/
def Obligations.AssemblerOperandCounts : Prop :=
  ∀ ns : List Nat,
    (∀ m ∈ [(Mnemonic.seed, 0x01#8), (Mnemonic.temper, 0x03#8), (Mnemonic.untemper, 0x04#8), (Mnemonic.clp, 0x06#8)],
      (∀ ws, assembleLine (.command m.1 ns) = .ok ws ↔
        ∃ n, ns = [n] ∧ n < 4294967296 ∧ ws = [m.2 ++ BitVec.ofNat 32 n])) ∧
    (∀ m ∈ [(Mnemonic.next, 0x02#8), (Mnemonic.clb, 0x05#8), (Mnemonic.rdstat, 0x07#8)],
      (∀ ws, assembleLine (.command m.1 ns) = .ok ws ↔ ns = [] ∧ ws = [m.2 ++ 0#32]))
end

