-- ==== Sys2Proof/Laws/State.lean ====
section
/-!
SUPPORT. One lemma per field per update of the state, so that no later proof unfolds a record update.
-/

namespace Sys2Proof.Machine

@[simp] theorem State.withMt_mt (x : Window) (s : State) : (s.withMt x).mt = x := rfl
@[simp] theorem State.withMt_valid (x : Window) (s : State) : (s.withMt x).valid = s.valid := rfl
@[simp] theorem State.withMt_loading (x : Window) (s : State) : (s.withMt x).loading = s.loading := rfl
@[simp] theorem State.withMt_lcnt (x : Window) (s : State) : (s.withMt x).lcnt = s.lcnt := rfl
@[simp] theorem State.withMt_err (x : Window) (s : State) : (s.withMt x).err = s.err := rfl
@[simp] theorem State.withMt_input (x : Window) (s : State) : (s.withMt x).input = s.input := rfl
@[simp] theorem State.withMt_output (x : Window) (s : State) : (s.withMt x).output = s.output := rfl
@[simp] theorem State.withMt_resets (x : Window) (s : State) : (s.withMt x).resets = s.resets := rfl

@[simp] theorem State.withValid_mt (b : Bool) (s : State) : (s.withValid b).mt = s.mt := rfl
@[simp] theorem State.withValid_valid (b : Bool) (s : State) : (s.withValid b).valid = b := rfl
@[simp] theorem State.withValid_loading (b : Bool) (s : State) : (s.withValid b).loading = s.loading := rfl
@[simp] theorem State.withValid_lcnt (b : Bool) (s : State) : (s.withValid b).lcnt = s.lcnt := rfl
@[simp] theorem State.withValid_err (b : Bool) (s : State) : (s.withValid b).err = s.err := rfl
@[simp] theorem State.withValid_input (b : Bool) (s : State) : (s.withValid b).input = s.input := rfl
@[simp] theorem State.withValid_output (b : Bool) (s : State) : (s.withValid b).output = s.output := rfl
@[simp] theorem State.withValid_resets (b : Bool) (s : State) : (s.withValid b).resets = s.resets := rfl

@[simp] theorem State.withLoading_mt (b : Bool) (s : State) : (s.withLoading b).mt = s.mt := rfl
@[simp] theorem State.withLoading_valid (b : Bool) (s : State) : (s.withLoading b).valid = s.valid := rfl
@[simp] theorem State.withLoading_loading (b : Bool) (s : State) : (s.withLoading b).loading = b := rfl
@[simp] theorem State.withLoading_lcnt (b : Bool) (s : State) : (s.withLoading b).lcnt = s.lcnt := rfl
@[simp] theorem State.withLoading_err (b : Bool) (s : State) : (s.withLoading b).err = s.err := rfl
@[simp] theorem State.withLoading_input (b : Bool) (s : State) : (s.withLoading b).input = s.input := rfl
@[simp] theorem State.withLoading_output (b : Bool) (s : State) : (s.withLoading b).output = s.output := rfl
@[simp] theorem State.withLoading_resets (b : Bool) (s : State) : (s.withLoading b).resets = s.resets := rfl

@[simp] theorem State.withLcnt_mt (n : Fin 624) (s : State) : (s.withLcnt n).mt = s.mt := rfl
@[simp] theorem State.withLcnt_valid (n : Fin 624) (s : State) : (s.withLcnt n).valid = s.valid := rfl
@[simp] theorem State.withLcnt_loading (n : Fin 624) (s : State) : (s.withLcnt n).loading = s.loading := rfl
@[simp] theorem State.withLcnt_lcnt (n : Fin 624) (s : State) : (s.withLcnt n).lcnt = n := rfl
@[simp] theorem State.withLcnt_err (n : Fin 624) (s : State) : (s.withLcnt n).err = s.err := rfl
@[simp] theorem State.withLcnt_input (n : Fin 624) (s : State) : (s.withLcnt n).input = s.input := rfl
@[simp] theorem State.withLcnt_output (n : Fin 624) (s : State) : (s.withLcnt n).output = s.output := rfl
@[simp] theorem State.withLcnt_resets (n : Fin 624) (s : State) : (s.withLcnt n).resets = s.resets := rfl

@[simp] theorem State.withErr_mt (b : Bool) (s : State) : (s.withErr b).mt = s.mt := rfl
@[simp] theorem State.withErr_valid (b : Bool) (s : State) : (s.withErr b).valid = s.valid := rfl
@[simp] theorem State.withErr_loading (b : Bool) (s : State) : (s.withErr b).loading = s.loading := rfl
@[simp] theorem State.withErr_lcnt (b : Bool) (s : State) : (s.withErr b).lcnt = s.lcnt := rfl
@[simp] theorem State.withErr_err (b : Bool) (s : State) : (s.withErr b).err = b := rfl
@[simp] theorem State.withErr_input (b : Bool) (s : State) : (s.withErr b).input = s.input := rfl
@[simp] theorem State.withErr_output (b : Bool) (s : State) : (s.withErr b).output = s.output := rfl
@[simp] theorem State.withErr_resets (b : Bool) (s : State) : (s.withErr b).resets = s.resets := rfl

@[simp] theorem State.withInput_mt (es : List Event) (s : State) : (s.withInput es).mt = s.mt := rfl
@[simp] theorem State.withInput_valid (es : List Event) (s : State) : (s.withInput es).valid = s.valid := rfl
@[simp] theorem State.withInput_loading (es : List Event) (s : State) : (s.withInput es).loading = s.loading := rfl
@[simp] theorem State.withInput_lcnt (es : List Event) (s : State) : (s.withInput es).lcnt = s.lcnt := rfl
@[simp] theorem State.withInput_err (es : List Event) (s : State) : (s.withInput es).err = s.err := rfl
@[simp] theorem State.withInput_input (es : List Event) (s : State) : (s.withInput es).input = es := rfl
@[simp] theorem State.withInput_output (es : List Event) (s : State) : (s.withInput es).output = s.output := rfl
@[simp] theorem State.withInput_resets (es : List Event) (s : State) : (s.withInput es).resets = s.resets := rfl

@[simp] theorem State.emit_mt (r : Rsp) (s : State) : (s.emit r).mt = s.mt := rfl
@[simp] theorem State.emit_valid (r : Rsp) (s : State) : (s.emit r).valid = s.valid := rfl
@[simp] theorem State.emit_loading (r : Rsp) (s : State) : (s.emit r).loading = s.loading := rfl
@[simp] theorem State.emit_lcnt (r : Rsp) (s : State) : (s.emit r).lcnt = s.lcnt := rfl
@[simp] theorem State.emit_err (r : Rsp) (s : State) : (s.emit r).err = s.err := rfl
@[simp] theorem State.emit_input (r : Rsp) (s : State) : (s.emit r).input = s.input := rfl
@[simp] theorem State.emit_output (r : Rsp) (s : State) : (s.emit r).output = s.output ++ [r] := rfl
@[simp] theorem State.emit_resets (r : Rsp) (s : State) : (s.emit r).resets = s.resets := rfl

@[simp] theorem State.enterRunning_mt (s : State) : s.enterRunning.mt = s.mt := rfl
@[simp] theorem State.enterRunning_valid (s : State) : s.enterRunning.valid = true := rfl
@[simp] theorem State.enterRunning_loading (s : State) : s.enterRunning.loading = false := rfl
@[simp] theorem State.enterRunning_lcnt (s : State) : s.enterRunning.lcnt = 0 := rfl
@[simp] theorem State.enterRunning_err (s : State) : s.enterRunning.err = s.err := rfl
@[simp] theorem State.enterRunning_input (s : State) : s.enterRunning.input = s.input := rfl
@[simp] theorem State.enterRunning_output (s : State) : s.enterRunning.output = s.output := rfl
@[simp] theorem State.enterRunning_resets (s : State) : s.enterRunning.resets = s.resets := rfl

@[simp] theorem State.enterLoading_mt (s : State) : s.enterLoading.mt = s.mt := rfl
@[simp] theorem State.enterLoading_valid (s : State) : s.enterLoading.valid = false := rfl
@[simp] theorem State.enterLoading_loading (s : State) : s.enterLoading.loading = true := rfl
@[simp] theorem State.enterLoading_lcnt (s : State) : s.enterLoading.lcnt = 0 := rfl
@[simp] theorem State.enterLoading_err (s : State) : s.enterLoading.err = s.err := rfl
@[simp] theorem State.enterLoading_input (s : State) : s.enterLoading.input = s.input := rfl
@[simp] theorem State.enterLoading_output (s : State) : s.enterLoading.output = s.output := rfl
@[simp] theorem State.enterLoading_resets (s : State) : s.enterLoading.resets = s.resets := rfl

@[simp] theorem State.writeWord_mt (i : Fin 624) (w : Word) (s : State) : (s.writeWord i w).mt = s.mt.set i.val w := rfl
@[simp] theorem State.writeWord_valid (i : Fin 624) (w : Word) (s : State) : (s.writeWord i w).valid = s.valid := rfl
@[simp] theorem State.writeWord_loading (i : Fin 624) (w : Word) (s : State) : (s.writeWord i w).loading = s.loading := rfl
@[simp] theorem State.writeWord_lcnt (i : Fin 624) (w : Word) (s : State) : (s.writeWord i w).lcnt = s.lcnt := rfl
@[simp] theorem State.writeWord_err (i : Fin 624) (w : Word) (s : State) : (s.writeWord i w).err = s.err := rfl
@[simp] theorem State.writeWord_input (i : Fin 624) (w : Word) (s : State) : (s.writeWord i w).input = s.input := rfl
@[simp] theorem State.writeWord_output (i : Fin 624) (w : Word) (s : State) : (s.writeWord i w).output = s.output := rfl
@[simp] theorem State.writeWord_resets (i : Fin 624) (w : Word) (s : State) : (s.writeWord i w).resets = s.resets := rfl

@[simp] theorem takeReset_mt (s : State) : (takeReset s).mt = resetWindow (s.resets + 1) := rfl
@[simp] theorem takeReset_valid (s : State) : (takeReset s).valid = false := rfl
@[simp] theorem takeReset_loading (s : State) : (takeReset s).loading = false := rfl
@[simp] theorem takeReset_lcnt (s : State) : (takeReset s).lcnt = 0 := rfl
@[simp] theorem takeReset_err (s : State) : (takeReset s).err = false := rfl
@[simp] theorem takeReset_input (s : State) : (takeReset s).input = s.input := rfl
@[simp] theorem takeReset_output (s : State) : (takeReset s).output = s.output := rfl
@[simp] theorem takeReset_resets (s : State) : (takeReset s).resets = s.resets + 1 := rfl

@[simp] theorem State.reset_valid : State.reset.valid = false := rfl
@[simp] theorem State.reset_loading : State.reset.loading = false := rfl
@[simp] theorem State.reset_lcnt : State.reset.lcnt = 0 := rfl
@[simp] theorem State.reset_err : State.reset.err = false := rfl
@[simp] theorem State.reset_input : State.reset.input = [] := rfl
@[simp] theorem State.reset_output : State.reset.output = [] := rfl
@[simp] theorem State.reset_resets : State.reset.resets = 0 := rfl

@[simp] theorem State.countPush_mt (s : State) : s.countPush.mt = s.mt := by
  unfold State.countPush; split <;> rfl
@[simp] theorem State.countPush_err (s : State) : s.countPush.err = s.err := by
  unfold State.countPush; split <;> rfl
@[simp] theorem State.countPush_input (s : State) : s.countPush.input = s.input := by
  unfold State.countPush; split <;> rfl
@[simp] theorem State.countPush_output (s : State) : s.countPush.output = s.output := by
  unfold State.countPush; split <;> rfl
@[simp] theorem State.countPush_resets (s : State) : s.countPush.resets = s.resets := by
  unfold State.countPush; split <;> rfl

/-- While fewer than 624 words are loaded, a push counts one more and leaves the flags (43_clone.md R141). -/
theorem State.countPush_of_lt (s : State) (h : s.lcnt.val + 1 < 624) :
    s.countPush = s.withLcnt ⟨s.lcnt.val + 1, h⟩ := by simp [State.countPush, h]

/-- The 624th push completes the load (43_clone.md R141). -/
theorem State.countPush_of_last (s : State) (h : s.lcnt.val = 623) : s.countPush = s.enterRunning := by
  simp [State.countPush, h]

/-- VALID after a push (43_clone.md R141). -/
theorem State.countPush_valid (s : State) :
    s.countPush.valid = if s.lcnt.val + 1 < 624 then s.valid else true := by
  unfold State.countPush; split <;> simp [*]

/-- LOADING after a push (43_clone.md R141). -/
theorem State.countPush_loading (s : State) :
    s.countPush.loading = if s.lcnt.val + 1 < 624 then s.loading else false := by
  unfold State.countPush; split <;> simp [*]

/-- LCNT after a push (43_clone.md R141). -/
theorem State.countPush_lcnt (s : State) :
    s.countPush.lcnt.val = if s.lcnt.val + 1 < 624 then s.lcnt.val + 1 else 0 := by
  unfold State.countPush; split <;> simp [*]

/-- Two states with equal fields are equal. -/
theorem State.ext_fields {s t : State} (h1 : s.mt = t.mt) (h2 : s.valid = t.valid) (h3 : s.loading = t.loading)
    (h4 : s.lcnt = t.lcnt) (h5 : s.err = t.err) (h6 : s.input = t.input) (h7 : s.output = t.output)
    (h8 : s.resets = t.resets) : s = t := by
  cases s; cases t; simp_all

end Sys2Proof.Machine
end

