-- ==== Sys2Proof/Laws/Words.lean ====
section
/-!
SUPPORT. The fields of command and response words: what is put together comes apart, and nothing else does
(30_encoding.md R60, R67).
-/

namespace Sys2Proof

/-- The high field of `a ++ b`. -/
@[simp] theorem extract_high (a : BitVec 8) (b : Word) : (a ++ b).extractLsb' 32 8 = a := by
  apply BitVec.eq_of_getLsbD_eq
  intro i hi
  rw [BitVec.getLsbD_extractLsb', BitVec.getLsbD_append]
  simp [hi]

/-- The low field of `a ++ b`. -/
@[simp] theorem extract_low (a : BitVec 8) (b : Word) : (a ++ b).extractLsb' 0 32 = b := by
  apply BitVec.eq_of_getLsbD_eq
  intro i hi
  rw [BitVec.getLsbD_extractLsb', BitVec.getLsbD_append]
  simp [hi]

/-- Every 40-bit word is its two fields. -/
theorem append_extract (w : BitVec 40) : (w.extractLsb' 32 8 : BitVec 8) ++ (w.extractLsb' 0 32 : Word) = w := by
  apply BitVec.eq_of_getLsbD_eq
  intro i hi
  simp only [BitVec.getLsbD_append, BitVec.getLsbD_extractLsb']
  split
  · simp_all
  · have h1 : i - 32 < 8 := by omega
    have h2 : 32 + (i - 32) = i := by omega
    simp [h1, h2]

/-- Two field pairs give the same word only if they are equal. -/
theorem append_inj {a c : BitVec 8} {b d : Word} : a ++ b = c ++ d ↔ a = c ∧ b = d := by
  constructor
  · intro h
    exact ⟨by simpa using congrArg (·.extractLsb' 32 8) h, by simpa using congrArg (·.extractLsb' 0 32) h⟩
  · rintro ⟨rfl, rfl⟩; rfl

/-- Masking works field by field. -/
theorem append_and (a c : BitVec 8) (b d : Word) : (a ++ b) &&& (c ++ d) = (a &&& c) ++ (b &&& d) := by
  apply BitVec.eq_of_getLsbD_eq
  intro i hi
  simp only [BitVec.getLsbD_and, BitVec.getLsbD_append]
  split <;> rfl

@[simp] theorem opcodeOf_append (a : BitVec 8) (b : Word) : opcodeOf (a ++ b) = a := extract_high a b
@[simp] theorem operandOf_append (a : BitVec 8) (b : Word) : operandOf (a ++ b) = b := extract_low a b

/-- Decoding a word is decoding its two fields. -/
theorem decode_append (a : BitVec 8) (b : Word) : decode (a ++ b) = decodeFields a b := by simp [decode]

namespace Machine

@[simp] theorem rspStatus_rspWord (st : RspStatus) (d : Word) : rspStatus (rspWord st d) = st.code := extract_high _ _
@[simp] theorem rspData_rspWord (st : RspStatus) (d : Word) : rspData (rspWord st d) = d := extract_low _ _

/-- A response word determines its status and its data. -/
theorem rspWord_inj {a b : RspStatus} {x y : Word} : rspWord a x = rspWord b y ↔ a = b ∧ x = y := by
  unfold rspWord
  rw [append_inj]
  cases a <;> cases b <;> simp [RspStatus.code]

end Machine

end Sys2Proof
end

