-- ==== Sys2Proof/Laws/Ops.lean ====
section
/-!
SUPPORT. What each shared operation can do, once: ending a command, taking an event, the window operations. Proofs
cite these instead of unfolding the operations.
-/

namespace Sys2Proof.Machine

/-- `respond(OK, d)` answers the state with that one response added. -/
theorem respondOk_eq_next {d : Word} {s t : State} :
    respondOk d s = .next t ↔ t = s.emit (rspWord .ok d) := by
  simp [respondOk, eq_comm]

/-- `raise Error(code)` answers the state with ERR set and that one response added. -/
theorem raiseError_eq_next {c : RspStatus} {s t : State} :
    raiseError c s = .next t ↔ t = (s.withErr true).emit (rspWord c 0#32) := by
  simp [raiseError, eq_comm]

/-- A requirement that is met runs the body. -/
@[simp] theorem require_true (c : RspStatus) (body : State → Host.Outcome State Fault Refusal) (s : State) :
    require true c body s = body s := rfl

/-- A requirement that is not met raises the error. -/
@[simp] theorem require_false (c : RspStatus) (body : State → Host.Outcome State Fault Refusal) (s : State) :
    require false c body s = raiseError c s := rfl

@[simp] theorem takeEvent_withInput_nil (s : State) : takeEvent (s.withInput []) = none := rfl

@[simp] theorem takeEvent_withInput_cons (e : Event) (es : List Event) (s : State) :
    takeEvent (s.withInput (e :: es)) = some (e, s.withInput es) := rfl

/-- Taking an event takes the head of what the host presents and changes nothing else. -/
theorem takeEvent_eq_some {s t : State} {e : Event} :
    takeEvent s = some (e, t) ↔ ∃ es, s.input = e :: es ∧ t = s.withInput es := by
  unfold takeEvent
  cases h : s.input with
  | nil => simp
  | cons a as => simp only [Option.some.injEq, Prod.mk.injEq, List.cons.injEq]; aesop

/-- Everything a step that answers a next state can have done. -/
theorem step_cases {s t : State} (h : step s = .next t) :
    (s.input = [] ∧ t = s) ∨
    (∃ f es, s.input = .reset f :: es ∧ t = takeReset (s.withInput es)) ∨
    (∃ w es i, s.input = .command w :: es ∧ decode w = .ok i ∧ exec i (s.withInput es) = .next t) ∨
    (∃ w es why, s.input = .command w :: es ∧ decode w = .error why ∧
      t = ((s.withInput es).withErr true).emit (rspWord .errIllegal 0#32)) := by
  cases hin : s.input with
  | nil => left; simp [step, takeEvent, hin, waitForHost] at h; exact ⟨rfl, h.symm⟩
  | cons e es =>
    right
    cases e with
    | reset f => left; simp [step, takeEvent, hin] at h; exact ⟨f, es, rfl, h.symm⟩
    | command w =>
      right
      cases hd : decode w with
      | ok i => left; simp [step, takeEvent, hin, hd] at h; exact ⟨w, es, i, rfl, hd, h⟩
      | error why =>
        right
        simp only [step, takeEvent, hin, hd, illegalCommand, raiseError_eq_next] at h
        exact ⟨w, es, why, rfl, hd, h⟩

/-- Everything a command that answers a next state can have done, command by command. -/
theorem exec_cases {i : Instr} {s t : State} (h : exec i s = .next t) :
    (∃ v, i = .seed v ∧ t = (s.withMt (seedWindow v)).enterRunning.emit (rspWord .ok 0#32)) ∨
    (i = .next ∧ s.valid = true ∧
      t = (s.withMt (advanceWindow s.mt s.newWord)).emit (rspWord .ok (temper s.newWord))) ∨
    (i = .next ∧ s.valid = false ∧ t = (s.withErr true).emit (rspWord .errPrecond 0#32)) ∨
    (∃ x, i = .temper x ∧ t = s.emit (rspWord .ok (temper x))) ∨
    (∃ y, i = .untemper y ∧ t = s.emit (rspWord .ok (untemper y))) ∨
    (i = .clb ∧ t = s.enterLoading.emit (rspWord .ok 0#32)) ∨
    (∃ y, i = .clp y ∧ s.loading = true ∧
      t = (s.writeWord s.lcnt (untemper y)).countPush.emit (rspWord .ok (BitVec.ofNat 32 (s.lcnt.val + 1)))) ∨
    (∃ y, i = .clp y ∧ s.loading = false ∧ t = (s.withErr true).emit (rspWord .errPrecond 0#32)) ∨
    (i = .rdstat ∧ t = s.emit (rspWord .ok (statusWord s))) := by
  cases i with
  | seed v => exact .inl ⟨v, rfl, respondOk_eq_next.mp h⟩
  | next =>
    cases hv : s.valid with
    | true => rw [exec, execNext, hv, require_true, respondOk_eq_next] at h; exact .inr (.inl ⟨rfl, rfl, h⟩)
    | false =>
      rw [exec, execNext, hv, require_false, raiseError_eq_next] at h; exact .inr (.inr (.inl ⟨rfl, rfl, h⟩))
  | temper x => exact .inr (.inr (.inr (.inl ⟨x, rfl, respondOk_eq_next.mp h⟩)))
  | untemper y => exact .inr (.inr (.inr (.inr (.inl ⟨y, rfl, respondOk_eq_next.mp h⟩))))
  | clb => exact .inr (.inr (.inr (.inr (.inr (.inl ⟨rfl, respondOk_eq_next.mp h⟩)))))
  | clp y =>
    cases hl : s.loading with
    | true =>
      rw [exec, execClp, hl, require_true, respondOk_eq_next] at h
      exact .inr (.inr (.inr (.inr (.inr (.inr (.inl ⟨y, rfl, rfl, h⟩))))))
    | false =>
      rw [exec, execClp, hl, require_false, raiseError_eq_next] at h
      exact .inr (.inr (.inr (.inr (.inr (.inr (.inr (.inl ⟨y, rfl, rfl, h⟩)))))))
  | rdstat =>
    exact .inr (.inr (.inr (.inr (.inr (.inr (.inr (.inr ⟨rfl, respondOk_eq_next.mp h⟩)))))))

/-- A word of the window after a reset is the free value of its position. -/
theorem getElem_resetWindow (draw i : Nat) (h : i < 624) : (resetWindow draw)[i] = Config.resetWord draw i := by
  unfold resetWindow
  rw [Vector.getElem_mk, List.getElem_toArray, List.getElem_map, List.getElem_range]

/-- After the advance, position i holds what position i + 1 held; the last holds the new word (41_next.md R103). -/
theorem getElem_advanceWindow (mt : Window) (w : Word) (i : Nat) (h : i < 624) :
    (advanceWindow mt w)[i] = if h' : i + 1 < 624 then mt[i + 1] else w := by
  have hlen : mt.toList.tail.length = 623 := by simp
  simp only [advanceWindow, Vector.getElem_mk, List.getElem_toArray]
  split
  · rw [List.getElem_append_left (by omega)]; simp
  · rw [List.getElem_append_right (by omega)]; simp

/-- Position 0 of the seeded words is the first one given. -/
theorem getElem_seedList_zero (n i : Nat) (p : Word) (h : 0 < (seedList n i p).length) : (seedList n i p)[0] = p := by
  cases n with
  | zero => simp at h
  | succ n => rfl

/-- Each seeded word follows from the one before it (40_seed.md R90). -/
theorem getElem_seedList_succ (n i k : Nat) (p : Word) (h : k + 1 < n) :
    (seedList n i p)[k + 1]'(by simpa using h) =
      seedNext ((seedList n i p)[k]'(by simp; omega)) (i + k + 1) := by
  induction n generalizing i k p with
  | zero => omega
  | succ n ih =>
    cases k with
    | zero =>
      simp only [seedList, List.getElem_cons_succ, List.getElem_cons_zero, Nat.add_zero]
      exact getElem_seedList_zero n (i + 1) _ (by simp; omega)
    | succ k =>
      simp only [seedList, List.getElem_cons_succ]
      rw [ih (i + 1) k _ (by omega)]
      congr 1; omega

end Sys2Proof.Machine
end

