-- ==== Sys2Proof/Laws/PerInstr.lean ====
section
/-!
SUPPORT. Facts about every command as syntax, one lemma per constructor: its encoding matches exactly its own row of the
opcode map (30_encoding.md R62: "The seven match/mask pairs are disjoint").
-/

namespace Sys2Proof.Laws.Encoding

/-- The command is well formed, and the only row of the opcode map its word matches is the row of its mnemonic. -/
def Statement (i : Instr) : Prop :=
  i.wellFormed = true ∧ (opcodeMap.filter (·.covers (encode i))).map (·.mnemonic) = [i.mnemonic]

/-- A row that fixes the opcode only, written field by field. -/
theorem covers_opcode (m : String) (op op' : BitVec 8) (v : Word) :
    (OpRow.mk m (op ++ 0#32) (0xFF#8 ++ 0#32)).covers (op' ++ v) = (op' == op) := by
  simp only [OpRow.covers, append_and]
  rw [Bool.eq_iff_iff]
  simp only [beq_iff_eq, append_inj]
  have h : op' &&& 0xFF#8 = op' := by
    rw [show (0xFF#8 : BitVec 8) = BitVec.allOnes 8 from rfl, BitVec.and_allOnes]
  simp [h]

/-- A row that fixes the opcode and a zero operand, written field by field. -/
theorem covers_all (m : String) (op op' : BitVec 8) (v : Word) :
    (OpRow.mk m (op ++ 0#32) (0xFF#8 ++ 0xFFFFFFFF#32)).covers (op' ++ v) = (op' == op && v == 0#32) := by
  simp only [OpRow.covers, append_and]
  rw [Bool.eq_iff_iff]
  simp only [beq_iff_eq, append_inj, Bool.and_eq_true]
  have h : op' &&& 0xFF#8 = op' := by
    rw [show (0xFF#8 : BitVec 8) = BitVec.allOnes 8 from rfl, BitVec.and_allOnes]
  have h' : v &&& 0xFFFFFFFF#32 = v := by
    rw [show (0xFFFFFFFF#32 : BitVec 32) = BitVec.allOnes 32 from rfl, BitVec.and_allOnes]
  simp [h, h']

/-- The opcode map with its patterns and masks as pairs of fields. -/
theorem opcodeMap_fields : opcodeMap =
    [⟨"SEED", 0x01#8 ++ 0#32, 0xFF#8 ++ 0#32⟩, ⟨"NEXT", 0x02#8 ++ 0#32, 0xFF#8 ++ 0xFFFFFFFF#32⟩,
     ⟨"TEMPER", 0x03#8 ++ 0#32, 0xFF#8 ++ 0#32⟩, ⟨"UNTEMPER", 0x04#8 ++ 0#32, 0xFF#8 ++ 0#32⟩,
     ⟨"CLB", 0x05#8 ++ 0#32, 0xFF#8 ++ 0xFFFFFFFF#32⟩, ⟨"CLP", 0x06#8 ++ 0#32, 0xFF#8 ++ 0#32⟩,
     ⟨"RDSTAT", 0x07#8 ++ 0#32, 0xFF#8 ++ 0xFFFFFFFF#32⟩] := by decide

/-- The rows a word matches, by its two fields. -/
theorem rows_of_fields (op : BitVec 8) (v : Word) :
    (opcodeMap.filter (·.covers (op ++ v))).map (·.mnemonic) =
      (if op == 0x01#8 then ["SEED"] else []) ++ (if op == 0x02#8 && v == 0#32 then ["NEXT"] else []) ++
      (if op == 0x03#8 then ["TEMPER"] else []) ++ (if op == 0x04#8 then ["UNTEMPER"] else []) ++
      (if op == 0x05#8 && v == 0#32 then ["CLB"] else []) ++ (if op == 0x06#8 then ["CLP"] else []) ++
      (if op == 0x07#8 && v == 0#32 then ["RDSTAT"] else []) := by
  rw [opcodeMap_fields]
  simp only [List.filter_cons, covers_opcode, covers_all, List.filter_nil]
  split <;> split <;> split <;> split <;> split <;> split <;> split <;> rfl

theorem seed (v : Word) : Statement (.seed v) := ⟨rfl, by simp [encode, Instr.opcode, rows_of_fields, Instr.mnemonic]⟩
theorem next : Statement .next := ⟨rfl, by decide⟩
theorem temper (x : Word) : Statement (.temper x) :=
  ⟨rfl, by simp [encode, Instr.opcode, rows_of_fields, Instr.mnemonic]⟩
theorem untemper (y : Word) : Statement (.untemper y) :=
  ⟨rfl, by simp [encode, Instr.opcode, rows_of_fields, Instr.mnemonic]⟩
theorem clb : Statement .clb := ⟨rfl, by decide⟩
theorem clp (y : Word) : Statement (.clp y) := ⟨rfl, by simp [encode, Instr.opcode, rows_of_fields, Instr.mnemonic]⟩
theorem rdstat : Statement .rdstat := ⟨rfl, by decide⟩

end Sys2Proof.Laws.Encoding
end

