-- ==== Sys2Proof/Tests/Slice0.lean ====
section
/-!
SUPPORT. Small tests with expected values from spec/ (95_test_vectors.md V1 to V6, P2, P5, 42_temper.md R128, 41_next.md
R108), the ill-formed words that the check refuses, and, for every obligation with hypotheses, a witness that meets them.
-/

namespace Sys2Proof.Tests

open Sys2Proof.Machine Sys2Proof.Safety

/-- A state with the given flags and counter, every word of the window equal to m, and the given events to come. -/
def st (valid loading : Bool) (lcnt : Fin 624) (err : Bool) (m : Word) (input : List Event) : State :=
  { mt := Vector.replicate 624 m, valid := valid, loading := loading, lcnt := lcnt, err := err,
    input := input, output := [], resets := 0 }

/-- A running generator seeded with v. -/
def seeded (v : Word) : State := { st true false 0 false 0#32 [] with mt := seedWindow v }

/-- What f reads in the next state, if there is one. -/
def after {α : Type} (o : Host.Outcome State Fault Refusal) (f : State → α) : Option α :=
  match o with
  | .next t => some (f t)
  | .fault _ => none
  | .refused _ => none

/-- Flags, counter and the responses of a state. -/
def view (s : State) : (Bool × Bool × Nat) × Bool × List Rsp := (triple s, s.err, s.output)

/-! ## Well-formedness: each check refuses an ill-formed word (30_encoding.md R62 to R64) -/

theorem test_illFormed_opcode_zero : wordIsCommand 0x0000000000#40 = false := by decide
theorem test_illFormed_opcode_high : wordIsCommand 0x0800000000#40 = false ∧ wordIsCommand 0xFF12345678#40 = false := by
  decide
theorem test_illFormed_next_operand : wordIsCommand 0x0200000001#40 = false := by decide
theorem test_illFormed_clb_operand : wordIsCommand 0x0580000000#40 = false := by decide
theorem test_illFormed_rdstat_operand : wordIsCommand 0x0700000001#40 = false := by decide
theorem test_wellFormed_words : [0x01FFFFFFFF#40, 0x0200000000#40, 0x0300000000#40, 0x04B8CB4CB7#40, 0x0500000000#40,
    0x0600000005#40, 0x0700000000#40].all wordIsCommand = true := by decide
theorem test_wellFormed_instr : (Instr.clp 0xFFFFFFFF#32).wellFormed = true := by decide

/-! ## Decoding: words written out bit by bit from 30_encoding.md R60, R62 -/

theorem test_decode_seed : decode 0b0000000100000000000000000111101001101001#40 = .ok (.seed 31337#32) := by decide
theorem test_decode_next : decode 0b0000001000000000000000000000000000000000#40 = .ok .next := by decide
theorem test_decode_temper : decode 0b0000001110000000000000000000000000000001#40 = .ok (.temper 0x80000001#32) := by
  decide
theorem test_decode_untemper : decode 0b0000010001111111111111111111111111111110#40 = .ok (.untemper 0x7FFFFFFE#32) := by
  decide
theorem test_decode_clb : decode 0b0000010100000000000000000000000000000000#40 = .ok .clb := by decide
theorem test_decode_clp : decode 0b0000011010111000110010110100110010110111#40 = .ok (.clp 0xB8CB4CB7#32) := by decide
theorem test_decode_rdstat : decode 0b0000011100000000000000000000000000000000#40 = .ok .rdstat := by decide
theorem test_decode_illegal : decode 0b0000001000000000000000000000000000000001#40 = .error (.reservedOperand 2#8 1#32) := by
  decide
theorem test_decodeTableWord : decodeTableWord 40 0x06FFFFFFFF = some (.clp 0xFFFFFFFF#32) ∧
    decodeTableWord 40 0x0800000000 = none ∧ decodeTableWord 40 0x0200000000 = some .next := by decide

/-! ## SEED (95_test_vectors.md V1) -/

theorem test_seed_31337 : after (exec (.seed 31337#32) (st false true 7 true 5#32 []))
    (fun t => ([t.mt[0], t.mt[1], t.mt[2]], view t)) =
    some ([0x00007A69#32, 0xE6917C6E#32, 0x35F76C03#32], (true, false, 0), true, [0x0000000000#40]) := by decide +kernel
theorem test_seed_wraps : (seedWindow 0xFFFFFFFF#32)[1] = 0x4FE1DA6D#32 ∧ (seedWindow 0xFFFFFFFF#32)[623] = 0xCB76E730#32 := by
  decide +kernel

/-! ## NEXT (95_test_vectors.md V3; 41_next.md R108) -/

theorem test_next_known_vector : after (exec .next (seeded 31337#32)) (fun t => (t.mt[0], t.mt[623], t.output)) =
    some (0xE6917C6E#32, 0x8DB8D71F#32, [0x00B8CB4CB7#40]) := by decide +kernel
theorem test_next_low_bit : after (exec .next (st true false 0 false 0xFFFFFFFF#32 [])) (fun t => t.mt[623]) =
    some (0xE6F74F20#32 ^^^ 0xFFFFFFFF#32) := by decide +kernel

/-! ## TEMPER and UNTEMPER (42_temper.md R128) -/

theorem test_temper_corners : [0x00000000#32, 0x00000002#32, 0x00000800#32, 0x7FFFFFFF#32, 0x80000000#32, 0xFFFFFFFF#32,
    0x12345678#32, 0xDEADBEEF#32, 0x9908B0DF#32].map temper = [0x00000000#32, 0x00000002#32, 0x04440990#32, 0xE7F039FC#32,
    0x88102204#32, 0x6FE01BF8#32, 0x2B7E4A2D#32, 0xE016575D#32, 0xFE97EAEC#32] := by decide
theorem test_temper_during_load : after (exec (.temper 1#32) (st false true 7 false 0#32 [])) view =
    some ((false, true, 7), false, [0x0000400091#40]) := by decide
theorem test_untemper_corners : [0x00000001#32, 0x00000002#32, 0x00000800#32, 0x7FFFFFFF#32, 0x80000000#32, 0xFFFFFFFF#32,
    0x12345678#32, 0xDEADBEEF#32, 0x9908B0DF#32].map untemper = [0x102244C9#32, 0x00000002#32, 0x04048891#32, 0x92CDB9B7#32,
    0x80102204#32, 0x12DD9BB3#32, 0x32500A74#32, 0x8F3A6C09#32, 0x534CF982#32] := by decide
theorem test_untemper_after_reset : after (exec (.untemper 0xB8CB4CB7#32) State.reset) view =
    some ((false, false, 0), false, [0x008DB8D71F#40]) := by decide

/-! ## CLB, CLP and RDSTAT (95_test_vectors.md V6) -/

theorem test_clb : after (exec .clb (st true false 0 false 0#32 [])) view =
    some ((false, true, 0), false, [0x0000000000#40]) := by decide
theorem test_clp_first : after (exec (.clp 0xB8CB4CB7#32) (st false true 0 false 0#32 [])) (fun t => (t.mt[0], view t)) =
    some (0x8DB8D71F#32, (false, true, 1), false, [0x0000000001#40]) := by decide +kernel
theorem test_clp_last : after (exec (.clp 0#32) (st false true 623 true 9#32 [])) (fun t => ([t.mt[623], t.mt[622]], view t)) =
    some ([0#32, 9#32], (true, false, 0), true, [0x0000000270#40]) := by decide +kernel
theorem test_rdstat : after (exec .rdstat (st false true 1 true 0#32 [])) view =
    some ((false, true, 1), true, [0x0000010006#40]) := by decide
theorem test_rdstat_last : after (exec .rdstat (st false true 623 false 0#32 [])) (fun t => t.output) =
    some [0x00026F0002#40] := by decide

/-! ## Errors, reset and the port (95_test_vectors.md V6; 70_reset_and_hazards.md R200) -/

theorem test_next_refused : after (step (State.reset.withFetchWord 40 0x0200000000)) view =
    some ((false, false, 0), true, [0x0200000000#40]) := by decide
theorem test_clp_refused : after (step (st true false 0 false 3#32 [.command 0x0600000005#40])) (fun t => (t.mt[0], view t)) =
    some (3#32, (true, false, 0), true, [0x0200000000#40]) := by decide
theorem test_illegal_before_precond : after (step (State.reset.withFetchWord 40 0x0200000001)) view =
    some ((false, false, 0), true, [0x0100000000#40]) := by decide
theorem test_reset_drops_command : after (step (st false true 7 true 0#32 [.reset (some 0x0600000005#40), .command 1#40]))
    (fun t => (view t, t.input)) = some (((false, false, 0), false, []), [.command 1#40]) := by decide

/-- Every row of the opcode map runs as the first command after reset. -/
theorem test_rows_run_from_reset :
    ([0x0100000000, 0x0200000000, 0x0300000000, 0x0400000000, 0x0500000000, 0x0600000000, 0x0700000000].map fun w =>
      after (step (State.reset.withFetchWord 40 w)) (fun t => t.output)) =
    [some [0x0000000000#40], some [0x0200000000#40], some [0x0000000000#40], some [0x0000000000#40],
     some [0x0000000000#40], some [0x0200000000#40], some [0x0000000000#40]] := by decide

/-! ## The host's side (95_test_vectors.md P5, P2; 30_encoding.md R71, R72) -/

theorem test_byteStream : byteStream [0xB8CB4CB7#32, 0xCF7B1A1F#32, 0xF768AA16#32] 10 =
    [0xB7#8, 0x4C#8, 0xCB#8, 0xB8#8, 0x1F#8, 0x1A#8, 0x7B#8, 0xCF#8, 0x16#8, 0xAA#8] := by decide
theorem test_assemble_text : assembleText "SEED 31337 ; 0100007A69\nNEXT\n.word 0x0900000000;\nCLP 0xCF7B1A1F" =
    .ok [0x0100007A69#40, 0x0200000000#40, 0x0900000000#40, 0x06CF7B1A1F#40] := by decide +kernel
theorem test_assemble_errors : assembleText "SEED" = .error .missingOperand ∧ assembleText "NEXT 0" = .error .extraOperand ∧
    assembleText "TEMPER 4294967296" = .error .outOfRange ∧ assembleText "seed 1" = .error .unknownMnemonic ∧
    assembleText "CLONE 1, 2" = .error (.cloneCount 2) ∧ assembleText "CLP 0x" = .error .malformedOperand := by
  decide +kernel

/-! ## Witnesses: the hypotheses of every obligation can be met -/

theorem witness_DecodeEncodeRoundTrip : (Instr.seed 0xFFFFFFFF#32).wellFormed = true := by decide
theorem witness_StepRunsDecodedCommand : (st true false 0 false 0#32 [.command 0x0200000000#40, .reset none]).input =
    [.command 0x0200000000#40, .reset none] ∧ decode 0x0200000000#40 = .ok .next ∧
    decode (BitVec.ofNat 40 0x0200000000) = .ok .next := by decide
theorem witness_IdleCoreWaits : State.reset.input = [] := by decide
theorem witness_ResetEventClearsState : (st true false 0 true 1#32 [.reset (some 0x0100000005#40), .command 0#40]).input =
    .reset (some 0x0100000005#40) :: [.command 0#40] := by decide
theorem witness_NoDefaultSeed : (st true false 0 true 1#32 [.reset none, .command 0x0200000000#40]).input =
    .reset none :: .command 0x0200000000#40 :: [] := by decide
/-- A command word on the port: OneResponsePerCommand, ErrPrecondExactly. -/
theorem witness_command_on_port : (st false false 0 false 1#32 [.command 0x0600000005#40]).input =
    .command 0x0600000005#40 :: [] := by decide
/-- IllegalWordSetsErrOnly and ErrIllegalExactly, each clause at its boundary. -/
theorem witness_illegal_words :
    ([0x0000000000#40, 0x0800000000#40, 0xFFFFFFFFFF#40, 0x0200000001#40, 0x0580000000#40, 0x07FFFFFFFF#40].all fun w =>
      after (step (st true false 0 false 1#32 [.command w])) (fun t => t.output) == some [0x0100000000#40]) = true ∧
    8 ≤ (0x08#8 : BitVec 8).toNat ∧ 8 ≤ (0xFF#8 : BitVec 8).toNat ∧ ¬ 8 ≤ (0x07#8 : BitVec 8).toNat ∧
    (0x08#8 ++ 0#32 : Cmd) = 0x0800000000#40 := by decide
theorem witness_ErrorsArePrecise : ∃ t, step (st false false 0 false 1#32 [.command 0x0200000000#40]) = .next t ∧
    t.output = (st false false 0 false 1#32 [.command 0x0200000000#40]).output ++ [0x0200000000#40] ∧
    (0x0200000000#40 : Rsp).extractLsb' 32 8 ≠ 0x00#8 := ⟨_, rfl, by decide, by decide⟩
theorem witness_ErrIsSticky : (∃ t, step (st true false 0 false 1#32 [.command 0x0200000000#40]) = .next t) ∧
    (0x0200000000#40 : Cmd) ≠ 0x0700000000#40 ∧ (st true false 0 false 1#32 []).err = false ∧
    (∃ t, step (st true false 0 false 1#32 [.command 0x0700000000#40]) = .next t ∧ t.output = [] ++ [0x0000000001#40]) :=
  ⟨⟨_, rfl⟩, by decide, by decide, _, rfl, by decide⟩
theorem witness_PhaseInvariantKept : PhaseInv (st false true 623 true 1#32 [.command 0x0600000000#40]) ∧
    (∃ t, step (st false true 623 true 1#32 [.command 0x0600000000#40]) = .next t) ∧
    (∃ t, step (st true false 0 true 1#32 [.reset none]) = .next t) ∧ (st false true 623 true 1#32 []).err = true :=
  ⟨by decide, ⟨_, rfl⟩, ⟨_, rfl⟩, by decide⟩
/-- PhaseTransitions, each clause: from empty, running, loading 622 and loading 623. -/
theorem witness_PhaseTransitions :
    PhaseInv (st false false 0 false 1#32 []) ∧ PhaseEmpty (st false false 0 false 1#32 []) ∧
    PhaseInv (st true false 0 false 1#32 []) ∧ PhaseRunning (st true false 0 false 1#32 []) ∧
    PhaseInv (st false true 622 false 1#32 []) ∧ PhaseLoading 622 (st false true 622 false 1#32 []) ∧
    PhaseInv (st false true 623 false 1#32 []) ∧ PhaseLoading 623 (st false true 623 false 1#32 []) ∧
    isSeed 0x0100000007#40 = true ∧ isClp 0x0600000007#40 = true ∧ isSeed 0x0200000000#40 = false ∧
    isClp 0x0200000000#40 = false ∧ isSeed 0x0600000007#40 = false := by decide
/-- SeedFillsWindow and SeedIsPure: SEED answers a next state, for two seeds. -/
theorem witness_seed_completes : (∃ t, exec (.seed 31337#32) State.reset = .next t) ∧
    (∃ t, exec (.seed 1#32) (st true false 0 true 1#32 []) = .next t) := ⟨⟨_, rfl⟩, ⟨_, rfl⟩⟩
theorem witness_NextAdvancesWindow : (st true false 0 false 1#32 []).valid = true ∧
    (∃ t, exec .next (st true false 0 false 1#32 []) = .next t) ∧
    (∃ t, exec .next (st true false 0 true 1#32 []) = .next t) ∧
    (st true false 0 false 1#32 []).mt[0] = (st true false 0 true 1#32 []).mt[0] ∧
    (st true false 0 false 1#32 []).mt[1] = (st true false 0 true 1#32 []).mt[1] ∧
    (st true false 0 false 1#32 []).mt[397] = (st true false 0 true 1#32 []).mt[397] :=
  ⟨by decide, ⟨_, rfl⟩, ⟨_, rfl⟩, rfl, rfl, rfl⟩
/-- Two valid states that differ in bits 30 to 0 of the front word and in bit 31 of the following word. -/
theorem witness_NextReadsOneFrontBit :
    let s := st true false 0 false 1#32 []
    let s' := { s with mt := (s.mt.set 0 0x7FFFFFFE#32).set 1 0x80000001#32 }
    s.valid = true ∧ s'.valid = true ∧ s.mt[0].getLsbD 31 = s'.mt[0].getLsbD 31 ∧ s.mt[0] ≠ s'.mt[0] ∧
    (∀ i, i < 31 → s.mt[1].getLsbD i = s'.mt[1].getLsbD i) ∧ s.mt[1] ≠ s'.mt[1] ∧ s.mt[397] = s'.mt[397] ∧
    (∃ t, exec .next s = .next t) ∧ (∃ t, exec .next s' = .next t) :=
  ⟨rfl, rfl, by decide +kernel, by decide +kernel, by decide +kernel, by decide +kernel, by decide +kernel,
    ⟨_, rfl⟩, ⟨_, rfl⟩⟩
theorem witness_NextRefusedWithoutState : (st false true 7 false 1#32 []).valid = false := by decide
theorem witness_ZeroStateStaysZero : (st true false 0 false 0#32 []).valid = true ∧
    ∀ (i : Nat) (h : i < 624), (st true false 0 false 0#32 []).mt[i] = 0#32 := ⟨rfl, by intro i h; simp [st]⟩
/-- NextsReplaceTheWindow, NextFollowsRecurrence and CloneGuarantee: a valid state. -/
theorem witness_valid_generator : (seeded 31337#32).valid = true := rfl
/-- ClpLoadsOneWord and EveryWindowIsLoadable at both sides of the last push. -/
theorem witness_ClpLoadsOneWord : (st false true 622 false 1#32 []).loading = true ∧
    (st false true 623 false 1#32 []).loading = true ∧ (∃ t, exec (.clp 1#32) (st false true 623 false 1#32 []) = .next t) ∧
    (∃ u, exec (.untemper 1#32) (st false true 623 false 1#32 []) = .next u) := ⟨rfl, rfl, ⟨_, rfl⟩, ⟨_, rfl⟩⟩
/-- ClpLoadsOneWord, the refused case. -/
theorem witness_ClpLoadsOneWord_refused : (st true false 0 false 1#32 []).loading = false := by decide
theorem witness_ClbBeginsLoad : (st true false 0 false 1#32 []).err = false ∧ (0x80000000#32 : Word) ≠ 0#32 := by decide
theorem witness_LoadInProgress :
    (∀ w ∈ [0x0600000001#40, 0x0200000000#40, 0x0600000002#40, 0xFF00000000#40], isSeed w = false ∧ w ≠ 0x0500000000#40) ∧
    (pushes [0x0600000001#40, 0x0200000000#40, 0x0600000002#40, 0xFF00000000#40]).length ≤ 623 := by
  refine ⟨?_, by rw [show (pushes _).length = 2 by decide]; omega⟩
  simp only [List.mem_cons, List.not_mem_nil, or_false, forall_eq_or_imp, forall_eq]
  decide
theorem witness_CompleteLoad : (∀ w ∈ List.replicate 623 0x0600000001#40, isSeed w = false ∧ w ≠ 0x0500000000#40) ∧
    (pushes (List.replicate 623 0x0600000001#40)).length = 623 := by
  constructor
  · intro w hw; rw [List.eq_of_mem_replicate hw]; decide
  · decide +kernel
theorem witness_StatusReachableValues : PhaseInv (st false true 623 true 1#32 []) := by decide
theorem witness_OnlyNextRevealsWords : (0x0600000001#40 : Cmd) ≠ 0x0200000000#40 ∧
    ∃ t, step (st false true 7 false 1#32 [.command 0x0600000001#40]) = .next t := ⟨by decide, _, rfl⟩
/-- Two different states that differ only in words no command can observe. -/
theorem witness_UnreadWordsStayUnread : SameButUnread (st false false 0 false 1#32 []) (st false false 0 false 2#32 []) ∧
    (st false false 0 false 1#32 []).mt[5] ≠ (st false false 0 false 2#32 []).mt[5] :=
  ⟨⟨rfl, rfl, rfl, rfl, rfl, rfl, rfl, by simp [st], by simp [st]⟩, by decide +kernel⟩
theorem witness_SameWordsSameOutputs : (st true false 0 false 1#32 []).valid = true ∧ (st true false 0 true 1#32 []).valid = true ∧
    (st true false 0 false 1#32 []).mt = (st true false 0 true 1#32 []).mt ∧
    (∀ w ∈ [0x0200000000#40, 0x0300000001#40] ++ [0x0200000000#40, 0x0200000000#40, 0x0700000000#40],
      isSeed w = false ∧ w ≠ 0x0500000000#40 ∧ isClp w = false) := by
  refine ⟨rfl, rfl, rfl, ?_⟩
  simp only [List.cons_append, List.nil_append, List.mem_cons, List.not_mem_nil, or_false, forall_eq_or_imp, forall_eq]
  decide
theorem witness_CloneExpands : (List.replicate 624 4294967295).length = 624 ∧
    (∀ y ∈ List.replicate 624 4294967295, y < 4294967296) ∧ [1, 2].length ≠ 624 := by
  refine ⟨List.length_replicate, ?_, by decide⟩
  intro y hy; rw [List.eq_of_mem_replicate hy]; decide
theorem witness_LittleEndianBytes : 3 < (wordBytes 0xB8CB4CB7#32).length ∧ 4 ≤ 4 := by decide
theorem witness_TemperIsLinearBijection : (1 : Nat) ≤ 1 ∧ (31 : Nat) ≤ 31 := by decide
theorem witness_matrix_rows : 31 < untemperRows.length ∧ 31 < untemperCols.length ∧ 31 < temperRows.length := by decide
theorem witness_reset_inv : PhaseInv State.reset := by decide

end Sys2Proof.Tests
end

section
/-!
PROOFS. The decoder as the later proofs use it: a word decodes to a command exactly when it is that command's word
(30_encoding.md R60 to R66), and what the tests `isSeed` and `isClp` say of it.
-/

namespace Sys2Proof

/-- A command without operand is decoded exactly from a zero operand field (30_encoding.md R63). -/
theorem noOperand_eq_ok {op : BitVec 8} {arg : Word} {i j : Instr} :
    noOperand op arg i = .ok j ↔ arg = 0#32 ∧ i = j := by
  unfold noOperand
  split <;> simp [*]

/-- The two fields of a word that decodes are the opcode and the operand of its command. -/
theorem fields_of_decodeFields_ok {op : BitVec 8} {arg : Word} {i : Instr} (h : decodeFields op arg = .ok i) :
    op = i.opcode ∧ arg = i.operand := by
  unfold decodeFields at h
  split_ifs at h with h1 h2 h3 h4 h5 h6 h7
  · cases h; exact ⟨h1, rfl⟩
  · obtain ⟨harg, rfl⟩ := noOperand_eq_ok.mp h; exact ⟨h2, harg⟩
  · cases h; exact ⟨h3, rfl⟩
  · cases h; exact ⟨h4, rfl⟩
  · obtain ⟨harg, rfl⟩ := noOperand_eq_ok.mp h; exact ⟨h5, harg⟩
  · cases h; exact ⟨h6, rfl⟩
  · obtain ⟨harg, rfl⟩ := noOperand_eq_ok.mp h; exact ⟨h7, harg⟩

/-- A word decodes only to the command it is the word of. -/
theorem eq_encode_of_decode_ok {w : Cmd} {i : Instr} (h : decode w = .ok i) : w = encode i := by
  obtain ⟨hop, harg⟩ := fields_of_decodeFields_ok h
  rw [encode, ← hop, ← harg]
  exact (append_extract w).symm

/-- The word of a command decodes to that command. -/
theorem decode_encode (i : Instr) : decode (encode i) = .ok i := by
  rw [encode, decode_append]
  cases i <;> rfl

/-- Different commands have different words. -/
theorem encode_injective {i j : Instr} (h : encode i = encode j) : i = j := by
  have hd : decode (encode i) = decode (encode j) := congrArg decode h
  rw [decode_encode, decode_encode] at hd
  exact Except.ok.inj hd

end Sys2Proof

namespace Sys2Proof.Safety

@[simp] theorem isSeed_encode (i : Instr) : isSeed (encode i) = (i.opcode == 0x01#8) := by
  simp [isSeed, encode]

@[simp] theorem isClp_encode (i : Instr) : isClp (encode i) = (i.opcode == 0x06#8) := by
  simp [isClp, encode]

/-- A word with the opcode of CLP is the CLP of its operand field, whatever that holds (30_encoding.md R61). -/
theorem decode_of_isClp {w : Cmd} (h : isClp w = true) : decode w = .ok (.clp (operandOf w)) := by
  have hop : opcodeOf w = 0x06#8 := beq_iff_eq.mp h
  simp [decode, hop, decodeFields]

end Sys2Proof.Safety
end

section
/-!
PROOFS. One command word. `execWord` is what a step does with the word it has taken from the port; its lemmas, and
those of `exec`, say once what every command changes and what it leaves unchanged.
-/

namespace Sys2Proof.Machine

open Sys2Proof.Safety

/-- What a step does with the command word it has taken: decode and execute it, or refuse it. -/
def execWord (w : Cmd) (s : State) : Host.Outcome State Fault Refusal :=
  match decode w with
  | .ok i => exec i s
  | .error why => illegalCommand why s

/-- A step with a command word next on the port executes that word (70_reset_and_hazards.md R210). -/
theorem step_of_command {s : State} {w : Cmd} {es : List Event} (h : s.input = .command w :: es) :
    step s = execWord w (s.withInput es) := by
  have htake : takeEvent s = some (.command w, s.withInput es) := takeEvent_eq_some.mpr ⟨es, h, rfl⟩
  cases hd : decode w with
  | ok i => simp [step, htake, hd, execWord]
  | error why => simp [step, htake, hd, execWord]

/-- A step with a reset event next on the port resets the core (70_reset_and_hazards.md R200). -/
theorem step_of_reset {s : State} {f : Option Cmd} {es : List Event} (h : s.input = .reset f :: es) :
    step s = .next (takeReset (s.withInput es)) := by
  have htake : takeEvent s = some (.reset f, s.withInput es) := takeEvent_eq_some.mpr ⟨es, h, rfl⟩
  simp [step, htake]

/-- With no event pending a step changes nothing (log entry 4). -/
theorem step_of_idle {s : State} (h : s.input = []) : step s = .next s := by
  have htake : takeEvent s = none := by simp [takeEvent, h]
  simp [step, htake, waitForHost]

/-- Everything a step can have done: it waited, it took a reset event, or it executed one command word. -/
theorem step_inversion {s t : State} (h : step s = .next t) :
    t = s ∨ (∃ f es, s.input = .reset f :: es ∧ t = takeReset (s.withInput es)) ∨
    ∃ w es, s.input = .command w :: es ∧ execWord w (s.withInput es) = .next t := by
  cases hin : s.input with
  | nil => rw [step_of_idle hin] at h; cases h; exact .inl rfl
  | cons e es =>
    cases e with
    | reset f => rw [step_of_reset hin] at h; cases h; exact .inr (.inl ⟨f, es, rfl, rfl⟩)
    | command w => rw [step_of_command hin] at h; exact .inr (.inr ⟨w, es, rfl, h⟩)

/-! The normal form of a command: its precondition, what it does to the state, and the data word it answers. -/

/-- The state allows the command: NEXT needs VALID = 1 and CLP needs LOADING = 1 (60_exceptions.md R173). -/
def enabled : Instr → State → Bool
  | .next, s => s.valid
  | .clp _, s => s.loading
  | _, _ => true

/-- What the command, when the state allows it, does to the state before it answers. -/
def effect : Instr → State → State
  | .seed v, s => (s.withMt (seedWindow v)).enterRunning
  | .next, s => s.withMt (advanceWindow s.mt s.newWord)
  | .clb, s => s.enterLoading
  | .clp y, s => (s.writeWord s.lcnt (untemper y)).countPush
  | .temper _, s | .untemper _, s | .rdstat, s => s

/-- The data word of the command's response, when the state allows it. -/
def answer : Instr → State → Word
  | .seed _, _ | .clb, _ => 0#32
  | .next, s => temper s.newWord
  | .temper x, _ => temper x
  | .untemper y, _ => untemper y
  | .clp _, s => BitVec.ofNat 32 (s.lcnt.val + 1)
  | .rdstat, s => statusWord s

/-- Every command is: require the precondition, have the effect, respond with the answer. -/
theorem exec_eq_require (i : Instr) (s : State) :
    exec i s = require (enabled i s) .errPrecond (fun u => respondOk (answer i u) (effect i u)) s := by
  cases i <;> rfl

theorem exec_of_enabled {i : Instr} {s : State} (h : enabled i s = true) :
    exec i s = .next ((effect i s).emit (rspWord .ok (answer i s))) := by
  rw [exec_eq_require, h, require_true, respondOk]

theorem exec_of_not_enabled {i : Instr} {s : State} (h : enabled i s = false) :
    exec i s = .next ((s.withErr true).emit (rspWord .errPrecond 0#32)) := by
  rw [exec_eq_require, h, require_false, raiseError]

theorem execWord_encode (i : Instr) (s : State) : execWord (encode i) s = exec i s := by
  simp [execWord, decode_encode]

/-- A word that is no command is refused (60_exceptions.md R172). -/
theorem execWord_of_error {w : Cmd} {why : IllegalWord} (h : decode w = .error why) (s : State) :
    execWord w s = .next ((s.withErr true).emit (rspWord .errIllegal 0#32)) := by
  simp [execWord, h, illegalCommand, raiseError]

/-- Every word is a command's word or no command. -/
theorem encode_or_error (w : Cmd) : (∃ i, w = encode i) ∨ ∃ why, decode w = .error why := by
  cases hd : decode w with
  | ok i => exact .inl ⟨i, eq_encode_of_decode_ok hd⟩
  | error why => exact .inr ⟨why, rfl⟩

/-- A word that is no command is not the word of a command. -/
theorem ne_encode_of_error {w : Cmd} {why : IllegalWord} (h : decode w = .error why) (i : Instr) : w ≠ encode i := by
  rintro rfl
  rw [decode_encode] at h
  cases h

/-- What a command word can do, in every state: it completes, with its command's effect and answer, or it is refused,
with an error response and ERR set, because it is the word of no command that the state allows. -/
theorem execWord_completes_or_raises (w : Cmd) (s : State) :
    (∃ i, w = encode i ∧ enabled i s = true ∧
      execWord w s = .next ((effect i s).emit (rspWord .ok (answer i s)))) ∨
    (∃ c, c ≠ RspStatus.ok ∧ (∀ i, w = encode i → enabled i s = false) ∧
      execWord w s = .next ((s.withErr true).emit (rspWord c 0#32))) := by
  obtain ⟨i, rfl⟩ | ⟨why, hwhy⟩ := encode_or_error w
  · rw [execWord_encode]
    cases hen : enabled i s with
    | true => exact .inl ⟨i, rfl, hen, exec_of_enabled hen⟩
    | false =>
      refine .inr ⟨.errPrecond, by decide, fun j hj => ?_, exec_of_not_enabled hen⟩
      rwa [← encode_injective hj]
  · exact .inr ⟨.errIllegal, by decide, fun i hi => absurd hi (ne_encode_of_error hwhy i),
      execWord_of_error hwhy s⟩

/-! What an effect leaves unchanged. -/

@[simp] theorem effect_err (i : Instr) (s : State) : (effect i s).err = s.err := by cases i <;> simp [effect]
@[simp] theorem effect_input (i : Instr) (s : State) : (effect i s).input = s.input := by cases i <;> simp [effect]
@[simp] theorem effect_output (i : Instr) (s : State) : (effect i s).output = s.output := by cases i <;> simp [effect]
@[simp] theorem effect_resets (i : Instr) (s : State) : (effect i s).resets = s.resets := by cases i <;> simp [effect]

/-- t is s after one answered command: the response r added to the output, the events to come and the count of resets
as they were, and ERR set exactly when it was set or r is an error (10_state.md R26, 30_encoding.md R67). -/
structure Answers (s t : State) (r : Rsp) : Prop where
  input : t.input = s.input
  output : t.output = s.output ++ [r]
  resets : t.resets = s.resets
  err : t.err = true ↔ s.err = true ∨ rspStatus r ≠ 0x00#8

/-- A command that completes answers with status OK and leaves ERR. -/
theorem answers_effect (i : Instr) (s : State) (d : Word) :
    Answers s ((effect i s).emit (rspWord .ok d)) (rspWord .ok d) :=
  ⟨by simp, by simp, by simp, by simp [RspStatus.code]⟩

/-- A command that raises an error answers with its code and sets ERR (60_exceptions.md R177). -/
theorem answers_error {c : RspStatus} (hc : c ≠ .ok) (s : State) :
    Answers s ((s.withErr true).emit (rspWord c 0#32)) (rspWord c 0#32) :=
  ⟨by simp, by simp, by simp, by cases c <;> simp_all [RspStatus.code]⟩

/-- Every command word gets exactly one response, in every state (30_encoding.md R67, 60_exceptions.md R174). -/
theorem execWord_answers (w : Cmd) (s : State) : ∃ t r, execWord w s = .next t ∧ Answers s t r := by
  obtain ⟨i, -, -, h⟩ | ⟨c, hc, -, h⟩ := execWord_completes_or_raises w s
  · exact ⟨_, _, h, answers_effect i s _⟩
  · exact ⟨_, _, h, answers_error hc s⟩

/-- A state that a command word leads to is one after an answered command. -/
theorem answers_of_execWord {w : Cmd} {s t : State} (h : execWord w s = .next t) : ∃ r, Answers s t r := by
  obtain ⟨t', r, h', ha⟩ := execWord_answers w s
  rw [h] at h'
  cases h'
  exact ⟨r, ha⟩

/-! ERR has no effect on the commands (10_state.md R26). -/

@[simp] theorem enabled_withErr (i : Instr) (b : Bool) (s : State) : enabled i (s.withErr b) = enabled i s := by
  cases i <;> rfl

theorem countPush_withErr (b : Bool) (s : State) : (s.withErr b).countPush = s.countPush.withErr b := by
  by_cases h : s.lcnt.val + 1 < 624
  · rw [State.countPush_of_lt s h, State.countPush_of_lt (s.withErr b) h]; rfl
  · have hlast : s.lcnt.val = 623 := by omega
    rw [State.countPush_of_last s hlast, State.countPush_of_last (s.withErr b) hlast]; rfl

@[simp] theorem effect_withErr (i : Instr) (b : Bool) (s : State) :
    effect i (s.withErr b) = (effect i s).withErr b := by
  cases i with
  | clp y => exact countPush_withErr b (s.writeWord s.lcnt (untemper y))
  | seed | next | temper | untemper | clb | rdstat => rfl

theorem answer_withErr {i : Instr} (hi : i ≠ .rdstat) (b : Bool) (s : State) :
    answer i (s.withErr b) = answer i s := by
  cases i with
  | rdstat => exact absurd rfl hi
  | seed | next | temper | untemper | clb | clp => rfl

/-- A word other than RDSTAT does with ERR = 1 what it does with ERR = 0. -/
theorem execWord_withErr {w : Cmd} (hw : w ≠ rdstatWord) {s t : State} (h : execWord w s = .next t) :
    execWord w (s.withErr true) = .next (t.withErr true) := by
  obtain ⟨i, rfl⟩ | ⟨why, hwhy⟩ := encode_or_error w
  · have hi : i ≠ .rdstat := by rintro rfl; exact hw rfl
    rw [execWord_encode] at h ⊢
    cases hen : enabled i s with
    | true =>
      rw [exec_of_enabled hen] at h
      cases h
      rw [exec_of_enabled (by simpa using hen), effect_withErr, answer_withErr hi]
      rfl
    | false =>
      rw [exec_of_not_enabled hen] at h
      cases h
      rw [exec_of_not_enabled (by simpa using hen)]
      rfl
  · rw [execWord_of_error hwhy] at h ⊢
    cases h
    rfl

end Sys2Proof.Machine
end

section
/-!
PROOFS. STATUS bit by bit (10_state.md R29), and what ERR does to RDSTAT's answer (10_state.md R26).
-/

namespace Sys2Proof.Machine

open Sys2Proof.Safety

theorem getLsbD_flagWord (b : Bool) (i : Nat) : (flagWord b).getLsbD i = (decide (i = 0) && b) := by
  cases b <;> simp [flagWord, BitVec.getLsbD_one]

/-- A flag shifted to bit n is bit n and no other. -/
theorem getLsbD_flagWord_shiftLeft (b : Bool) (n : Nat) {i : Nat} (hi : i < 32) :
    (flagWord b <<< n).getLsbD i = (decide (i = n) && b) := by
  rw [BitVec.getLsbD_shiftLeft, getLsbD_flagWord]
  rcases Nat.lt_trichotomy i n with h | rfl | h
  · simp [h, Nat.ne_of_lt h]
  · simp [hi]
  · have hne : i - n ≠ 0 := by omega
    simp [hne, Nat.ne_of_gt h]

/-- LCNT shifted to bit 16 on. -/
theorem getLsbD_lcnt_shiftLeft (n : Nat) {i : Nat} (hi : i < 32) :
    (BitVec.ofNat 32 n <<< 16).getLsbD i = (decide (16 ≤ i) && n.testBit (i - 16)) := by
  rw [BitVec.getLsbD_shiftLeft, BitVec.getLsbD_ofNat]
  have hlt : i - 16 < 32 := by omega
  have hle : (!decide (i < 16)) = decide (16 ≤ i) := by rw [← decide_not]; simp
  simp [hi, hlt, hle]

/-- Bit i of STATUS: LCNT from bit 16 on, ERR, LOADING and VALID in bits 2, 1 and 0. -/
theorem getLsbD_statusWord (s : State) {i : Nat} (hi : i < 32) :
    (statusWord s).getLsbD i = (decide (16 ≤ i) && s.lcnt.val.testBit (i - 16) || decide (i = 2) && s.err ||
      decide (i = 1) && s.loading || decide (i = 0) && s.valid) := by
  simp only [statusWord, BitVec.getLsbD_or, getLsbD_lcnt_shiftLeft _ hi, getLsbD_flagWord_shiftLeft _ _ hi,
    getLsbD_flagWord]

/-- Bits 15:3 of STATUS are zero. -/
theorem statusWord_bits_15_3 (s : State) : (statusWord s).extractLsb' 3 13 = 0#13 := by
  apply BitVec.eq_of_getLsbD_eq
  intro i hi
  have h16 : ¬ 16 ≤ 3 + i := by omega
  have h2 : 3 + i ≠ 2 := by omega
  have h1 : 3 + i ≠ 1 := by omega
  simp [getLsbD_statusWord s (show 3 + i < 32 by omega), h16, h2, h1]

/-- Bits 25:16 of STATUS hold LCNT. -/
theorem statusWord_bits_25_16 (s : State) : (statusWord s).extractLsb' 16 10 = BitVec.ofNat 10 s.lcnt.val := by
  apply BitVec.eq_of_getLsbD_eq
  intro i hi
  have h2 : 16 + i ≠ 2 := by omega
  have h1 : 16 + i ≠ 1 := by omega
  rw [BitVec.getLsbD_extractLsb', getLsbD_statusWord s (show 16 + i < 32 by omega), BitVec.getLsbD_ofNat]
  simp [hi, h2, h1]

/-- Bits 31:26 of STATUS are zero, since LCNT is below 1024. -/
theorem statusWord_bits_31_26 (s : State) : (statusWord s).extractLsb' 26 6 = 0#6 := by
  apply BitVec.eq_of_getLsbD_eq
  intro i hi
  have h2 : 26 + i ≠ 2 := by omega
  have h1 : 26 + i ≠ 1 := by omega
  have hlcnt : s.lcnt.val.testBit (26 + i - 16) = false := by
    apply Nat.testBit_lt_two_pow
    calc s.lcnt.val < 2 ^ 10 := by omega
      _ ≤ 2 ^ (26 + i - 16) := Nat.pow_le_pow_right (by decide) (by omega)
  simp [getLsbD_statusWord s (show 26 + i < 32 by omega), hlcnt, h2, h1]

theorem or_second_to_last (a b c d : Word) : a ||| b ||| c ||| d = a ||| c ||| d ||| b := by ac_rfl

/-- STATUS with ERR's bit last. -/
theorem statusWord_eq (s : State) : statusWord s =
    (BitVec.ofNat 32 s.lcnt.val <<< 16) ||| (flagWord s.loading <<< 1) ||| flagWord s.valid |||
      (flagWord s.err <<< 2) :=
  or_second_to_last _ _ _ _

/-- With ERR set, STATUS has bit 2 set and is otherwise the same. -/
theorem statusWord_withErr {s : State} (h : s.err = false) : statusWord (s.withErr true) = statusWord s ||| 4#32 := by
  have hset : flagWord true <<< 2 = 4#32 := rfl
  have hclear : flagWord false <<< 2 = 0#32 := rfl
  simp only [statusWord_eq, State.withErr_err, State.withErr_lcnt, State.withErr_loading, State.withErr_valid, h, hset,
    hclear, BitVec.or_zero]

/-- Bit 2 of a response is bit 2 of its data word. -/
theorem rspWord_or_four (st : RspStatus) (d : Word) : rspWord st (d ||| 4#32) = rspWord st d ||| 0x0000000004#40 := by
  have hfour : 0x0000000004#40 = 0x00#8 ++ 4#32 := rfl
  rw [hfour, rspWord, rspWord, BitVec.or_append, BitVec.or_zero]

/-- RDSTAT with ERR = 1 answers what it answers with ERR = 0, but for bit 2 of its value (10_state.md R26, R29). -/
theorem execWord_rdstat_withErr {s t : State} {r : Rsp} (herr : s.err = false)
    (ht : execWord rdstatWord s = .next t) (hr : t.output = s.output ++ [r]) :
    execWord rdstatWord (s.withErr true) =
      .next { t with err := true, output := s.output ++ [r ||| 0x0000000004#40] } := by
  have hexec (u : State) : execWord rdstatWord u = .next (u.emit (rspWord .ok (statusWord u))) :=
    execWord_encode .rdstat u
  rw [hexec] at ht
  cases ht
  obtain rfl : rspWord .ok (statusWord s) = r := by simpa using hr
  rw [hexec, statusWord_withErr herr, rspWord_or_four]
  rfl

end Sys2Proof.Machine
end

section
/-!
PROOFS. The invariants on VALID, LOADING and LCNT (10_state.md R27), and ERR along steps (10_state.md R26).
-/

namespace Sys2Proof.Machine

open Sys2Proof.Safety

theorem triple_eq_iff {s : State} {v l : Bool} {n : Nat} :
    triple s = (v, l, n) ↔ s.valid = v ∧ s.loading = l ∧ s.lcnt.val = n := by
  simp [triple]

/-- The invariants by the three values of the triple (10_state.md R27). -/
theorem phaseInv_iff_phases (s : State) :
    PhaseInv s ↔ PhaseEmpty s ∨ PhaseRunning s ∨ ∃ k, k ≤ 623 ∧ PhaseLoading k s := by
  constructor
  · rintro ⟨hvalid, hlcnt⟩
    cases hl : s.loading with
    | true =>
      have hv : s.valid = false := by
        cases hv : s.valid with
        | false => rfl
        | true => rw [hvalid hv] at hl; cases hl
      exact .inr (.inr ⟨s.lcnt.val, by omega, triple_eq_iff.mpr ⟨hv, hl, rfl⟩⟩)
    | false =>
      have hzero : s.lcnt.val = 0 := congrArg Fin.val (hlcnt hl)
      cases hv : s.valid with
      | true => exact .inr (.inl (triple_eq_iff.mpr ⟨hv, hl, hzero⟩))
      | false => exact .inl (triple_eq_iff.mpr ⟨hv, hl, hzero⟩)
  · rintro (h | h | ⟨k, -, h⟩) <;> obtain ⟨hv, hl, hk⟩ := triple_eq_iff.mp h
    · exact ⟨by simp [hv], fun _ => Fin.ext hk⟩
    · exact ⟨fun _ => hl, fun _ => Fin.ext hk⟩
    · exact ⟨by simp [hv], by simp [hl]⟩

/-- The effect of a command that the state allows keeps the invariants. -/
theorem effect_keeps_phaseInv {i : Instr} {s : State} (hen : enabled i s = true) (h : PhaseInv s) :
    PhaseInv (effect i s) := by
  obtain ⟨hvalid, hlcnt⟩ := h
  cases i with
  | seed v => exact ⟨fun _ => rfl, fun _ => rfl⟩
  | clb => exact ⟨nofun, nofun⟩
  | next => exact ⟨hvalid, hlcnt⟩
  | temper | untemper | rdstat => exact ⟨hvalid, hlcnt⟩
  | clp y =>
    have hl : s.loading = true := hen
    by_cases hlast : s.lcnt.val + 1 < 624
    · rw [effect, State.countPush_of_lt (s.writeWord s.lcnt (untemper y)) hlast]
      exact ⟨hvalid, fun hl' => by simp [hl] at hl'⟩
    · have h623 : s.lcnt.val = 623 := by omega
      rw [effect, State.countPush_of_last (s.writeWord s.lcnt (untemper y)) h623]
      exact ⟨fun _ => rfl, fun _ => rfl⟩

/-- Every command word, legal or not, keeps the invariants: an error writes none of the triple. -/
theorem execWord_keeps_phaseInv {w : Cmd} {s t : State} (h : PhaseInv s) (ht : execWord w s = .next t) :
    PhaseInv t := by
  obtain ⟨i, -, hen, heq⟩ | ⟨c, -, -, heq⟩ := execWord_completes_or_raises w s <;> rw [heq] at ht <;> cases ht
  · exact effect_keeps_phaseInv hen h
  · exact h

/-- The reset event leads to the empty triple, which meets the invariants (10_state.md R33). -/
theorem phaseInv_takeReset (s : State) : PhaseInv (takeReset s) := ⟨nofun, fun _ => rfl⟩

/-- Every step keeps the invariants. -/
theorem step_keeps_phaseInv {s t : State} (h : PhaseInv s) (ht : step s = .next t) : PhaseInv t := by
  obtain rfl | ⟨f, es, -, rfl⟩ | ⟨w, es, -, hexec⟩ := step_inversion ht
  · exact h
  · exact phaseInv_takeReset _
  · exact execWord_keeps_phaseInv (s := s.withInput es) h hexec

/-- ERR, once 1, stays 1 unless the step is a reset (10_state.md R26). -/
theorem step_keeps_err {s t : State} (h : s.err = true) (ht : step s = .next t) :
    t.err = true ∨ ∃ f es, s.input = .reset f :: es := by
  obtain rfl | ⟨f, es, hin, -⟩ | ⟨w, es, -, hexec⟩ := step_inversion ht
  · exact .inl h
  · exact .inr ⟨f, es, hin⟩
  · obtain ⟨r, hans⟩ := answers_of_execWord hexec
    exact .inl (hans.err.mpr (.inl h))

/-- Settles O20: the step lemma `step_keeps_phaseInv`, the reset event alone, and the phases. -/
theorem phaseInvariantKept : Obligations.PhaseInvariantKept := by
  refine ⟨fun s t => step_keeps_phaseInv, fun s t f es hin ht => ?_, phaseInv_iff_phases, fun s t => step_keeps_err⟩
  rw [step_of_reset hin] at ht
  cases ht
  exact phaseInv_takeReset _

/-- Settles O19: every word's response says what becomes of ERR, a reset clears it, and no command's
precondition or effect reads it; RDSTAT alone shows it. -/
theorem errIsSticky : Obligations.ErrIsSticky := by
  refine ⟨fun s w rest hin => ?_, fun s f rest hin => ⟨_, step_of_reset hin, rfl⟩,
    fun s t w rest hin hw _ ht => ?_, fun s t rest r hin herr ht hr => ?_⟩
  · obtain ⟨t, r, ht, hans⟩ := execWord_answers w (s.withInput rest)
    exact ⟨t, r, (step_of_command hin).trans ht, hans.output, hans.err⟩
  · rw [step_of_command hin] at ht
    rw [step_of_command (s := { s with err := true }) hin]
    exact execWord_withErr hw ht
  · rw [step_of_command hin] at ht
    rw [step_of_command (s := { s with err := true }) hin]
    exact execWord_rdstat_withErr (s := s.withInput rest) herr ht hr

/-- Settles O44: the bits of STATUS one field at a time. -/
theorem rdstatAnswersStatus : Obligations.RdstatAnswersStatus := by
  intro s
  refine ⟨statusWord s, rfl, ?_, ?_, ?_, statusWord_bits_15_3 s, ?_, statusWord_bits_31_26 s⟩
  · rw [getLsbD_statusWord s (by decide)]; simp
  · rw [getLsbD_statusWord s (by decide)]; simp
  · rw [getLsbD_statusWord s (by decide)]; simp
  · rw [statusWord_bits_25_16, BitVec.toNat_ofNat, Nat.mod_eq_of_lt (by omega)]

/-- Settles O45: the triple's three values, one by one. -/
theorem statusReachableValues : Obligations.StatusReachableValues := by
  intro s hinv
  refine ⟨_, rfl, ?_⟩
  have herr : (if s.err then 4#32 else 0#32) = flagWord s.err <<< 2 := by cases s.err <;> rfl
  rw [herr, statusWord_eq]
  obtain h | h | ⟨k, hk, h⟩ := (phaseInv_iff_phases s).mp hinv <;>
    obtain ⟨hv, hl, hlcnt⟩ := triple_eq_iff.mp h <;> rw [hv, hl, hlcnt]
  · exact .inl rfl
  · exact .inr (.inl rfl)
  · refine .inr (.inr ⟨k, hk, ?_⟩)
    simp [flagWord]

/-- Settles O8: each clause reads off a field of State.reset, STATUS being computed from them. -/
theorem resetStateValues : Obligations.ResetStateValues := ⟨rfl, rfl, rfl, rfl, rfl, rfl, rfl⟩

/-- Settles O21: the triple at State.reset is empty, which is one of the three values that meet the invariants. -/
theorem resetMeetsPhaseInvariant : Obligations.ResetMeetsPhaseInvariant :=
  ⟨(phaseInv_iff_phases State.reset).mpr (.inl rfl), rfl⟩

end Sys2Proof.Machine
end

section
/-!
PROOFS. Runs of command words: one step per word (20_memory.md R48, 70_reset_and_hazards.md R208).
-/

namespace Sys2Proof.Machine

open Sys2Proof.Safety

/-- The first step of a run of any machine behind the host's interface. -/
theorem core_run_succ {M : Host.Core} {s t : M.State} (h : M.step s = .next t) (k : Nat) :
    M.run (k + 1) s = M.run k t := by
  simp only [Host.Core.run, h]

/-- The first step of a run of this core. -/
theorem run_succ_of_step {s t : State} (h : step s = .next t) (k : Nat) :
    Host.Core.run Sys2Proof.core (k + 1) s = Host.Core.run Sys2Proof.core k t :=
  core_run_succ (M := Sys2Proof.core) h k

@[simp] theorem feed_mt (ws : List Cmd) (s : State) : (feed ws s).mt = s.mt := rfl
@[simp] theorem feed_valid (ws : List Cmd) (s : State) : (feed ws s).valid = s.valid := rfl
@[simp] theorem feed_loading (ws : List Cmd) (s : State) : (feed ws s).loading = s.loading := rfl
@[simp] theorem feed_lcnt (ws : List Cmd) (s : State) : (feed ws s).lcnt = s.lcnt := rfl
@[simp] theorem feed_err (ws : List Cmd) (s : State) : (feed ws s).err = s.err := rfl
@[simp] theorem feed_input (ws : List Cmd) (s : State) : (feed ws s).input = ws.map .command := rfl
@[simp] theorem feed_output (ws : List Cmd) (s : State) : (feed ws s).output = s.output := rfl
@[simp] theorem feed_resets (ws : List Cmd) (s : State) : (feed ws s).resets = s.resets := rfl

/-- Presenting again what the host already presents changes nothing. -/
theorem feed_eq_self {ws : List Cmd} {s : State} (h : s.input = ws.map .command) : feed ws s = s :=
  State.ext_fields rfl rfl rfl rfl rfl h.symm rfl rfl

@[simp] theorem runWords_nil (s : State) : runWords [] s = .next (s.withInput []) := rfl

/-- A run executes its first word, with the others still on the port, and goes on from there. -/
theorem runWords_cons {w : Cmd} {ws : List Cmd} {s t : State} (h : execWord w (feed ws s) = .next t) :
    runWords (w :: ws) s = runWords ws t := by
  have hstep : step (feed (w :: ws) s) = .next t := (step_of_command (es := ws.map .command) rfl).trans h
  obtain ⟨r, hans⟩ := answers_of_execWord h
  have hfeed : feed ws t = t := feed_eq_self hans.input
  rw [runWords, List.length_cons, run_succ_of_step hstep, runWords, hfeed]

/-- Settles O10: the reset clears VALID, and NEXT without VALID is refused. -/
theorem noDefaultSeed : Obligations.NoDefaultSeed := by
  intro s f rest hin
  have hreset := step_of_reset hin
  have hnext : step (takeReset (s.withInput (.command nextWord :: rest))) = .next _ :=
    (step_of_command (w := nextWord) (es := rest) rfl).trans
      ((execWord_encode .next _).trans (exec_of_not_enabled rfl))
  exact ⟨_, (run_succ_of_step hreset 1).trans (run_succ_of_step hnext 0), rfl, rfl⟩

/-- The window, VALID, LOADING and LCNT of t are those of s. -/
structure SameGenerator (s t : State) : Prop where
  mt : t.mt = s.mt
  valid : t.valid = s.valid
  loading : t.loading = s.loading
  lcnt : t.lcnt = s.lcnt

/-- The effect of a command is nothing unless it is SEED, CLB, CLP or NEXT. -/
theorem effect_eq_self {i : Instr} {s : State} (hseed : isSeed (encode i) = false) (hclb : encode i ≠ clbWord)
    (hclp : isClp (encode i) = false) (hnext : encode i ≠ nextWord) : effect i s = s := by
  cases i with
  | seed v => simp [Instr.opcode] at hseed
  | clb => exact absurd rfl hclb
  | clp y => simp [Instr.opcode] at hclp
  | next => exact absurd rfl hnext
  | temper | untemper | rdstat => rfl

/-- A word that is no SEED, CLB or CLP, and no NEXT that completes, leaves the window, the flags VALID and LOADING and
the count alone. -/
theorem execWord_sameGenerator {w : Cmd} {s t : State} (hseed : isSeed w = false) (hclb : w ≠ clbWord)
    (hclp : isClp w = false) (hnext : w = nextWord → s.valid = false) (h : execWord w s = .next t) :
    SameGenerator s t := by
  obtain ⟨i, rfl, hen, heq⟩ | ⟨c, -, -, heq⟩ := execWord_completes_or_raises w s <;> rw [heq] at h <;> cases h
  · have hne : encode i ≠ nextWord := by
      intro hi
      obtain rfl : i = .next := encode_injective hi
      have hv : s.valid = true := hen
      rw [hnext rfl] at hv
      cases hv
    rw [effect_eq_self hseed hclb hclp hne]
    exact ⟨rfl, rfl, rfl, rfl⟩
  · exact ⟨rfl, rfl, rfl, rfl⟩

end Sys2Proof.Machine
end

section
/-!
PROOFS. A load in progress (10_state.md R24, 43_clone.md R142): what has been pushed so far determines the first LCNT
words, and the others are those the CLB found.
-/

namespace Sys2Proof.Machine

open Sys2Proof.Safety

/-- t is in the load that began with the window `old`, the words ps having been pushed so far. -/
structure LoadedSoFar (old : Window) (ps : List Word) (t : State) : Prop where
  loading : t.loading = true
  valid : t.valid = false
  lcnt : t.lcnt.val = ps.length
  pushed : ∀ (i : Nat) (_ : i < ps.length) (_ : i < 624), t.mt[i] = untemper ps[i]
  unpushed : ∀ (i : Nat) (_ : i < 624), ps.length ≤ i → t.mt[i] = old[i]

/-- CLB begins a load with nothing pushed. -/
theorem loadedSoFar_clb (s : State) (r : Rsp) : LoadedSoFar s.mt [] (s.enterLoading.emit r) :=
  ⟨rfl, rfl, rfl, nofun, fun _ _ _ => rfl⟩

/-- What leaves the window, the flags and the count alone leaves the load alone. -/
theorem LoadedSoFar.of_sameGenerator {old : Window} {ps : List Word} {s t : State} (h : LoadedSoFar old ps s)
    (hst : SameGenerator s t) : LoadedSoFar old ps t where
  loading := hst.loading.trans h.loading
  valid := hst.valid.trans h.valid
  lcnt := by rw [hst.lcnt]; exact h.lcnt
  pushed i hi hi' := by simp only [hst.mt]; exact h.pushed i hi hi'
  unpushed i hi hi' := by simp only [hst.mt]; exact h.unpushed i hi hi'

/-- A push that is not the last writes position LCNT and counts (43_clone.md R141). -/
theorem LoadedSoFar.push {old : Window} {ps : List Word} {s : State} (h : LoadedSoFar old ps s)
    (hlen : ps.length + 1 ≤ 623) (y : Word) (r : Rsp) :
    LoadedSoFar old (ps ++ [y]) ((effect (.clp y) s).emit r) := by
  have hlt : s.lcnt.val + 1 < 624 := by rw [h.lcnt]; omega
  rw [effect, State.countPush_of_lt (s.writeWord s.lcnt (untemper y)) hlt]
  refine ⟨h.loading, h.valid, by simp [h.lcnt], fun i hi hi' => ?_, fun i hi hle => ?_⟩
  · simp only [State.emit_mt, State.withLcnt_mt, State.writeWord_mt, Vector.getElem_set, h.lcnt]
    split
    case isTrue heq => subst heq; simp
    case isFalse hne =>
      have hold : i < ps.length := by rw [List.length_append, List.length_singleton] at hi; omega
      rw [h.pushed i hold hi', List.getElem_append_left hold]
  · rw [List.length_append, List.length_singleton] at hle
    have hne : ps.length ≠ i := by omega
    simp only [State.emit_mt, State.withLcnt_mt, State.writeWord_mt, Vector.getElem_set, h.lcnt, if_neg hne]
    exact h.unpushed i hi (by omega)

theorem pushes_cons_of_isClp {w : Cmd} (h : isClp w = true) (ws : List Cmd) :
    pushes (w :: ws) = operandOf w :: pushes ws := by
  simp [pushes, h, operandOf]

theorem pushes_cons_of_not_isClp {w : Cmd} (h : isClp w = false) (ws : List Cmd) : pushes (w :: ws) = pushes ws := by
  simp [pushes, h]

/-- Any words but SEED and CLB, with fewer than 624 pushes in the whole load, carry it on. -/
theorem LoadedSoFar.carried_on {old : Window} {ws : List Cmd} (hws : ∀ w ∈ ws, isSeed w = false ∧ w ≠ clbWord)
    {ps : List Word} {s : State} (h : LoadedSoFar old ps s) (hlen : (ps ++ pushes ws).length ≤ 623) :
    ∃ t, runWords ws s = .next t ∧ LoadedSoFar old (ps ++ pushes ws) t := by
  induction ws generalizing ps s with
  | nil =>
    rw [show pushes [] = [] from rfl, List.append_nil]
    exact ⟨_, runWords_nil s, h.of_sameGenerator ⟨rfl, rfl, rfl, rfl⟩⟩
  | cons w ws ih =>
    obtain ⟨⟨hseed, hclb⟩, hrest⟩ := List.forall_mem_cons.mp hws
    have hfeed : LoadedSoFar old ps (feed ws s) := h.of_sameGenerator ⟨rfl, rfl, rfl, rfl⟩
    cases hc : isClp w with
    | true =>
      have hw : w = encode (.clp (operandOf w)) := eq_encode_of_decode_ok (decode_of_isClp hc)
      have hexec := (execWord_encode (.clp (operandOf w)) (feed ws s)).trans (exec_of_enabled hfeed.loading)
      rw [← hw] at hexec
      rw [pushes_cons_of_isClp hc, List.append_cons] at hlen ⊢
      have hpush : ps.length + 1 ≤ 623 := by simp at hlen; omega
      rw [runWords_cons hexec]
      exact ih hrest (hfeed.push hpush _ _) hlen
    | false =>
      obtain ⟨t, -, hexec, -⟩ := execWord_answers w (feed ws s)
      rw [pushes_cons_of_not_isClp hc] at hlen ⊢
      rw [runWords_cons hexec]
      exact ih hrest (hfeed.of_sameGenerator (execWord_sameGenerator hseed hclb hc (fun _ => hfeed.valid) hexec)) hlen

/-- Settles O40: CLB begins the load and `LoadedSoFar.carried_on` carries it on. -/
theorem loadInProgress : Obligations.LoadInProgress := by
  intro s ws hws hlen
  have hclb : execWord clbWord (feed ws s) = .next ((feed ws s).enterLoading.emit (rspWord .ok 0#32)) :=
    execWord_encode .clb _
  obtain ⟨t, hrun, ht⟩ := (loadedSoFar_clb (feed ws s) (rspWord .ok 0#32)).carried_on hws (by simpa using hlen)
  exact ⟨t, (runWords_cons hclb).trans hrun, ht.loading, ht.valid, ht.lcnt, ht.pushed, ht.unpushed⟩

end Sys2Proof.Machine
end

section
/-!
PROOFS. The window determines every later output (10_state.md R31, 41_next.md R106).
-/

namespace Sys2Proof.Machine

open Sys2Proof.Safety

/-- The word NEXT appends to the window mt (41_next.md R103). -/
def newWordOf (mt : Window) : Word := twist (combine mt[0] mt[1]) ^^^ mt[397]

/-- The data words of the next n outputs of the window mt. -/
def outputs : Nat → Window → List Word
  | 0, _ => []
  | n + 1, mt => temper (newWordOf mt) :: outputs n (advanceWindow mt (newWordOf mt))

theorem newWord_eq_newWordOf (s : State) : s.newWord = newWordOf s.mt := rfl

/-- Fewer outputs of a window are an initial part of more. -/
theorem outputs_prefix {m n : Nat} (h : m ≤ n) (mt : Window) : outputs m mt <+: outputs n mt := by
  induction m generalizing n mt with
  | zero => exact List.nil_prefix
  | succ m ih =>
    obtain ⟨n, rfl⟩ : ∃ k, n = k + 1 := ⟨n - 1, by omega⟩
    exact (List.prefix_cons_inj _).mpr (ih (by omega) _)

theorem nextData_cons_next (ws : List Cmd) (r : Rsp) (rs : List Rsp) :
    nextData (nextWord :: ws) (r :: rs) = rspData r :: nextData ws rs := by
  simp [nextData, rspData]

theorem nextData_cons_of_ne {w : Cmd} (h : w ≠ nextWord) (ws : List Cmd) (r : Rsp) (rs : List Rsp) :
    nextData (w :: ws) (r :: rs) = nextData ws rs := by
  simp [nextData, h]

/-- NEXT on a generator state. -/
theorem execWord_next {s : State} (h : s.valid = true) : execWord nextWord s =
    .next ((s.withMt (advanceWindow s.mt (newWordOf s.mt))).emit (rspWord .ok (temper (newWordOf s.mt)))) :=
  (execWord_encode .next s).trans (exec_of_enabled h)

/-- What a word other than SEED, CLB and CLP does to a generator: it stays one; NEXT answers its next output and
advances its window, any other word leaves the window alone. -/
theorem execWord_on_generator {w : Cmd} (hseed : isSeed w = false) (hclb : w ≠ clbWord) (hclp : isClp w = false)
    {s : State} (hv : s.valid = true) :
    ∃ t r, execWord w s = .next t ∧ t.output = s.output ++ [r] ∧ t.valid = true ∧
      ((w = nextWord ∧ rspData r = temper (newWordOf s.mt) ∧ t.mt = advanceWindow s.mt (newWordOf s.mt)) ∨
       (w ≠ nextWord ∧ t.mt = s.mt)) := by
  by_cases hw : w = nextWord
  · subst hw
    exact ⟨_, _, execWord_next hv, rfl, hv, .inl ⟨rfl, rspData_rspWord _ _, rfl⟩⟩
  · obtain ⟨t, r, hexec, hans⟩ := execWord_answers w s
    have hsame := execWord_sameGenerator hseed hclb hclp (fun h => absurd h hw) hexec
    exact ⟨t, r, hexec, hans.output, hsame.valid.trans hv, .inr ⟨hw, hsame.mt⟩⟩

/-- The data words a run answers to its NEXT commands are the outputs of the window it began with, whatever ERR is and
whatever other words than SEED, CLB and CLP are interleaved. -/
theorem runWords_nextData {ws : List Cmd} (hws : ∀ w ∈ ws, isSeed w = false ∧ w ≠ clbWord ∧ isClp w = false)
    {s : State} (hv : s.valid = true) :
    ∃ t rs, runWords ws s = .next t ∧ t.output = s.output ++ rs ∧ rs.length = ws.length ∧
      nextData ws rs = outputs (ws.count nextWord) s.mt := by
  induction ws generalizing s with
  | nil => exact ⟨_, [], runWords_nil s, (List.append_nil _).symm, rfl, rfl⟩
  | cons w ws ih =>
    obtain ⟨⟨hseed, hclb, hclp⟩, hrest⟩ := List.forall_mem_cons.mp hws
    obtain ⟨u, r, hexec, hr, hu, hcase⟩ := execWord_on_generator hseed hclb hclp (s := feed ws s) hv
    obtain ⟨t, rs, hrun, hout, hlen, hdata⟩ := ih hrest hu
    have houtput : t.output = s.output ++ r :: rs := by rw [hout, hr, List.append_assoc]; rfl
    refine ⟨t, r :: rs, (runWords_cons hexec).trans hrun, houtput, congrArg (· + 1) hlen, ?_⟩
    obtain ⟨rfl, hrdata, hmt⟩ | ⟨hw, hmt⟩ := hcase
    · rw [nextData_cons_next, hdata, hrdata, hmt, List.count_cons_self, outputs, feed_mt]
    · rw [nextData_cons_of_ne hw, hdata, hmt, List.count_cons_of_ne hw, feed_mt]

/-- Settles O48: both lists of data words are outputs of the one window. -/
theorem sameWordsSameOutputs : Obligations.SameWordsSameOutputs := by
  intro s s' ws ws' hv hv' hmt hws
  obtain ⟨hws₁, hws₂⟩ := List.forall_mem_append.mp hws
  obtain ⟨t, rs, hrun, hout, hlen, hdata⟩ := runWords_nextData hws₁ hv
  obtain ⟨t', rs', hrun', hout', hlen', hdata'⟩ := runWords_nextData hws₂ hv'
  refine ⟨t, t', rs, rs', hrun, hrun', hout, hout', hlen, hlen', ?_⟩
  rw [hdata, hdata', ← hmt]
  exact (Nat.le_total _ _).imp (outputs_prefix · s.mt) (outputs_prefix · s.mt)

end Sys2Proof.Machine
end

section
/-!
PROOFS. The core sees no later event (20_memory.md R48): what a step does with the event it takes is the same whatever
the host presents next, so a run is the fold of single steps.
-/

namespace Sys2Proof.Machine

/-- Counting a push neither reads nor writes the events to come. -/
theorem countPush_withInput (es : List Event) (s : State) :
    (s.withInput es).countPush = s.countPush.withInput es := by
  by_cases h : s.lcnt.val + 1 < 624
  · rw [State.countPush_of_lt s h, State.countPush_of_lt (s.withInput es) h]; rfl
  · have hlast : s.lcnt.val = 623 := by omega
    rw [State.countPush_of_last s hlast, State.countPush_of_last (s.withInput es) hlast]; rfl

@[simp] theorem enabled_withInput (i : Instr) (es : List Event) (s : State) :
    enabled i (s.withInput es) = enabled i s := by
  cases i <;> rfl

@[simp] theorem effect_withInput (i : Instr) (es : List Event) (s : State) :
    effect i (s.withInput es) = (effect i s).withInput es := by
  cases i with
  | clp y => exact countPush_withInput es (s.writeWord s.lcnt (untemper y))
  | seed | next | temper | untemper | clb | rdstat => rfl

@[simp] theorem answer_withInput (i : Instr) (es : List Event) (s : State) :
    answer i (s.withInput es) = answer i s := by
  cases i <;> rfl

/-- A command word leads to one state, the same but for the events still to come, whatever these are. -/
theorem execWord_ignores_input (w : Cmd) (s : State) :
    ∃ t : State, ∀ es, execWord w (s.withInput es) = .next (t.withInput es) := by
  obtain ⟨i, rfl⟩ | ⟨why, hwhy⟩ := encode_or_error w
  · simp only [execWord_encode]
    cases hen : enabled i s with
    | true =>
      refine ⟨(effect i s).emit (rspWord .ok (answer i s)), fun es => ?_⟩
      rw [exec_of_enabled (by simpa using hen), effect_withInput, answer_withInput]
      rfl
    | false =>
      exact ⟨(s.withErr true).emit (rspWord .errPrecond 0#32),
        fun es => exec_of_not_enabled (by simpa using hen)⟩
  · exact ⟨(s.withErr true).emit (rspWord .errIllegal 0#32), fun es => execWord_of_error hwhy _⟩

/-- A step takes one event, sees none of the later ones and loses none of them (20_memory.md R48). -/
theorem step_ignores_later_events (e : Event) (s : State) :
    ∃ t : State, ∀ es, step (s.withInput (e :: es)) = .next (t.withInput es) := by
  cases e with
  | reset f => exact ⟨takeReset s, fun es => (step_of_reset (f := f) (es := es) rfl).trans rfl⟩
  | command w =>
    obtain ⟨t, ht⟩ := execWord_ignores_input w s
    exact ⟨t, fun es => (step_of_command rfl).trans (ht es)⟩

/-- Settles O13, by induction on the events: the step with the first event alone on the port and the first step of
the run lead to the same state but for the events still to come. -/
theorem runIsFoldOfSteps : Obligations.RunIsFoldOfSteps := by
  intro es s
  induction es generalizing s with
  | nil => rfl
  | cons e es ih =>
    obtain ⟨t, ht⟩ := step_ignores_later_events e s
    have halone : step ((s.withInput []).withInput [e]) = .next (t.withInput []) := ht []
    have hrun := (run_succ_of_step (ht es) es.length).trans (ih t)
    exact hrun.trans (congrArg (List.foldl _ · es) halone.symm)

end Sys2Proof.Machine
end

section
/-!
PROOFS. The order in which a host serialises data words (20_memory.md R42).
-/

namespace Sys2Proof.Machine

@[simp] theorem wordBytes_length (v : Word) : (wordBytes v).length = 4 := rfl

/-- The k-th of a word's bytes is byte k. -/
theorem getElem_wordBytes (v : Word) (k : Nat) (h : k < (wordBytes v).length) : (wordBytes v)[k] = byteOf v k := by
  rw [wordBytes_length] at h
  interval_cases k <;> rfl

/-- Bit i of byte k of a word is bit 8k+i of the word. -/
theorem getLsbD_byteOf (v : Word) (k : Nat) {i : Nat} (hi : i < 8) :
    (byteOf v k).getLsbD i = v.getLsbD (8 * k + i) := by
  simp [byteOf, hi]

/-- The words of a list have four bytes each. -/
theorem length_flatMap_wordBytes (vs : List Word) : (vs.flatMap wordBytes).length = 4 * vs.length := by
  simp [List.length_flatMap, Nat.mul_comm]

/-- A stream cut inside a word has all bytes of the words before it and the first bytes of that word. -/
theorem byteStream_append_singleton (vs : List Word) (v : Word) (j : Nat) :
    byteStream (vs ++ [v]) (4 * vs.length + j) = vs.flatMap wordBytes ++ (wordBytes v).take j := by
  rw [byteStream, List.flatMap_append, List.flatMap_singleton, ← length_flatMap_wordBytes,
    List.take_length_add_append]

/-- Settles O49: the bytes by their positions, the stream by the lengths of its words' bytes. -/
theorem littleEndianBytes : Obligations.LittleEndianBytes := by
  refine ⟨fun v k h i hi => ?_, wordBytes_length, fun vs v j _ => byteStream_append_singleton vs v j, by decide⟩
  rw [getElem_wordBytes, getLsbD_byteOf v k hi]

end Sys2Proof.Machine
end

section
/-!
PROOFS. The decoder and the encoder (30_encoding.md R60 to R66): the round trip, the match and mask of every row, the
words that are no command, and how many words are commands.
-/

namespace Sys2Proof

/-- A word decodes to a command exactly when it is that command's word. -/
theorem decode_eq_ok_iff {w : Cmd} {i : Instr} : decode w = .ok i ↔ w = encode i :=
  ⟨eq_encode_of_decode_ok, by rintro rfl; exact decode_encode i⟩

/-- Settles O3: `decode_encode` and `eq_encode_of_decode_ok`. -/
theorem decodeEncodeRoundTrip : Obligations.DecodeEncodeRoundTrip :=
  fun i _ => ⟨decode_encode i, fun _ => eq_encode_of_decode_ok⟩

/-! The match and mask of a row (30_encoding.md R62). -/

/-- A word is the pair of its fields and of no others. -/
theorem eq_append_iff {w : Cmd} {op : BitVec 8} {v : Word} : w = op ++ v ↔ opcodeOf w = op ∧ v = operandOf w := by
  constructor
  · rintro rfl
    simp
  · rintro ⟨rfl, rfl⟩
    exact (append_extract w).symm

/-- The mask of a row with an operand tests the opcode field alone. -/
theorem and_opcodeMask_eq_iff {w : Cmd} {op : BitVec 8} :
    w &&& (0xFF#8 ++ 0#32) = op ++ 0#32 ↔ opcodeOf w = op := by
  have hfields : opcodeOf w ++ operandOf w = w := append_extract w
  have hrow := Laws.Encoding.covers_opcode "" op (opcodeOf w) (operandOf w)
  rw [hfields] at hrow
  exact beq_iff_eq.symm.trans ((Bool.eq_iff_iff.mp hrow).trans beq_iff_eq)

/-- A command whose operand field may hold anything, by match and mask. -/
theorem decode_eq_ok_iff_opcodeMask {mk : Word → Instr} {op : BitVec 8} (hmk : ∀ v, encode (mk v) = op ++ v)
    {w : Cmd} {v : Word} : decode w = .ok (mk v) ↔ w &&& (0xFF#8 ++ 0#32) = op ++ 0#32 ∧ v = operandOf w := by
  rw [decode_eq_ok_iff, hmk, eq_append_iff, and_opcodeMask_eq_iff]

/-- A command whose operand field is reserved, by match and mask: the mask tests all 40 bits. -/
theorem decode_eq_ok_iff_fullMask {w : Cmd} (i : Instr) :
    decode w = .ok i ↔ w &&& 0xFFFFFFFFFF#40 = encode i := by
  have hmask : w &&& 0xFFFFFFFFFF#40 = w := BitVec.and_allOnes
  rw [decode_eq_ok_iff, hmask]

/-- Every row of the opcode map tests all eight bits of the opcode. -/
theorem opcodeOf_mask {r : OpRow} (hr : r ∈ opcodeMap) : opcodeOf r.mask = BitVec.allOnes 8 := by
  revert r
  decide

/-- A word that matches a row of the opcode map has the row's opcode. -/
theorem opcodeOf_eq_of_covers {r : OpRow} (hr : r ∈ opcodeMap) {w : Cmd} (h : r.covers w = true) :
    opcodeOf w = opcodeOf r.pattern := by
  have hmatch : w &&& r.mask = r.pattern := beq_iff_eq.mp h
  calc opcodeOf w = opcodeOf w &&& opcodeOf r.mask := by rw [opcodeOf_mask hr, BitVec.and_allOnes]
    _ = opcodeOf (w &&& r.mask) := BitVec.extractLsb'_and.symm
    _ = opcodeOf r.pattern := by rw [hmatch]

/-- The rows of the opcode map have different opcodes. -/
theorem opcodeMap_opcodes_distinct :
    opcodeMap.Pairwise (fun a b => opcodeOf a.pattern ≠ opcodeOf b.pattern) := by decide

/-- No word matches two rows of the opcode map, since it has one opcode. -/
theorem opcodeMap_disjoint : opcodeMap.Pairwise (fun a b => ∀ w, ¬(a.covers w = true ∧ b.covers w = true)) :=
  opcodeMap_opcodes_distinct.imp_of_mem fun ha hb hne _ ⟨hwa, hwb⟩ =>
    hne ((opcodeOf_eq_of_covers ha hwa).symm.trans (opcodeOf_eq_of_covers hb hwb))

/-- Settles O1: each row by the kind of its mask, and `opcodeMap_disjoint`. -/
theorem decodeIsTheOpcodeMap : Obligations.DecodeIsTheOpcodeMap :=
  ⟨fun _ =>
    ⟨fun _ => decode_eq_ok_iff_opcodeMask (mk := .seed) fun _ => rfl,
      decode_eq_ok_iff_fullMask .next,
      fun _ => decode_eq_ok_iff_opcodeMask (mk := .temper) fun _ => rfl,
      fun _ => decode_eq_ok_iff_opcodeMask (mk := .untemper) fun _ => rfl,
      decode_eq_ok_iff_fullMask .clb,
      fun _ => decode_eq_ok_iff_opcodeMask (mk := .clp) fun _ => rfl,
      decode_eq_ok_iff_fullMask .rdstat⟩,
    opcodeMap_disjoint⟩

/-! The words that are no command (30_encoding.md R63, R64). -/

/-- The fields of a word that is no command: a reserved opcode, or a reserved operand that is not zero. -/
def IllegalFields (op : BitVec 8) (arg : Word) : Prop :=
  op = 0x00#8 ∨ 8 ≤ op.toNat ∨ ((op = 0x02#8 ∨ op = 0x05#8 ∨ op = 0x07#8) ∧ arg ≠ 0#32)

/-- No command's word has illegal fields. -/
theorem not_illegalFields_of_instr (i : Instr) : ¬ IllegalFields i.opcode i.operand := by
  cases i <;> simp [IllegalFields, Instr.opcode, Instr.operand]

/-- A word with illegal fields is no command. -/
theorem decode_error_of_illegalFields {op : BitVec 8} {arg : Word} (h : IllegalFields op arg) :
    ∃ why, decode (op ++ arg) = .error why := by
  cases hd : decode (op ++ arg) with
  | error why => exact ⟨why, rfl⟩
  | ok i =>
    obtain ⟨rfl, rfl⟩ := append_inj.mp (eq_encode_of_decode_ok hd)
    exact absurd h (not_illegalFields_of_instr i)

/-- A command whose operand field is reserved is decoded exactly from a zero operand. -/
theorem decode_reserved {i : Instr} {op : BitVec 8} (hi : encode i = op ++ 0#32)
    (hop : op = 0x02#8 ∨ op = 0x05#8 ∨ op = 0x07#8) (arg : Word) :
    if arg = 0#32 then decode (op ++ arg) = .ok i else ∃ why, decode (op ++ arg) = .error why := by
  split
  case isTrue harg => rw [harg, ← hi]; exact decode_encode i
  case isFalse harg => exact decode_error_of_illegalFields (.inr (.inr ⟨hop, harg⟩))

/-- Settles O2: each opcode from 1 to 7 by its command's word, every other one by `decode_error_of_illegalFields`. -/
theorem decodeByFields : Obligations.DecodeByFields := by
  intro op arg
  have hop {n : Nat} (h : op.toNat = n) : op = BitVec.ofNat 8 n := by rw [← h, BitVec.ofNat_toNat, BitVec.setWidth_eq]
  split
  next h => rw [hop h]; exact decode_encode (.seed arg)
  next h => rw [hop h]; exact decode_reserved (i := .next) rfl (by decide) arg
  next h => rw [hop h]; exact decode_encode (.temper arg)
  next h => rw [hop h]; exact decode_encode (.untemper arg)
  next h => rw [hop h]; exact decode_reserved (i := .clb) rfl (by decide) arg
  next h => rw [hop h]; exact decode_encode (.clp arg)
  next h => rw [hop h]; exact decode_reserved (i := .rdstat) rfl (by decide) arg
  next =>
    have hout : op.toNat = 0 ∨ 8 ≤ op.toNat := by
      simp only [imp_false] at *
      omega
    exact decode_error_of_illegalFields (hout.imp hop .inl)

/-! The number of commands (30_encoding.md R64). -/

/-- The commands are four with an operand and three without. -/
def instrEquiv : Instr ≃ (Fin 4 × Word) ⊕ Fin 3 where
  toFun
    | .seed s => .inl (0, s)
    | .temper x => .inl (1, x)
    | .untemper y => .inl (2, y)
    | .clp y => .inl (3, y)
    | .next => .inr 0
    | .clb => .inr 1
    | .rdstat => .inr 2
  invFun
    | .inl (0, s) => .seed s
    | .inl (1, x) => .temper x
    | .inl (2, y) => .untemper y
    | .inl (3, y) => .clp y
    | .inr 0 => .next
    | .inr 1 => .clb
    | .inr 2 => .rdstat
  left_inv i := by cases i <;> rfl
  right_inv
    | .inl (0, _) | .inl (1, _) | .inl (2, _) | .inl (3, _) | .inr 0 | .inr 1 | .inr 2 => rfl

theorem card_word : Nat.card Word = 2 ^ 32 := by
  rw [Nat.card_congr BitVec.equivFin.toEquiv, Nat.card_fin]

theorem card_instr : Nat.card Instr = 4 * 2 ^ 32 + 3 := by
  rw [Nat.card_congr instrEquiv, Nat.card_sum, Nat.card_prod, Nat.card_fin, Nat.card_fin, card_word]

/-- The words that decode to a command are the words that encode one. -/
theorem decodes_iff_mem_range_encode (w : Cmd) : (∃ i, decode w = .ok i) ↔ w ∈ Set.range encode :=
  exists_congr fun _ => decode_eq_ok_iff.trans eq_comm

/-- Settles O4: the words that are commands are as many as the commands, which `instrEquiv` counts. -/
theorem commandWordCount : Obligations.CommandWordCount :=
  calc Nat.card { w : Cmd // ∃ i, decode w = .ok i }
    _ = Nat.card (Set.range encode) := Nat.card_congr (Equiv.subtypeEquivRight decodes_iff_mem_range_encode)
    _ = Nat.card Instr := Nat.card_range_of_injective fun _ _ => encode_injective
    _ = 4 * 2 ^ 32 + 3 := card_instr

end Sys2Proof
end

section
/-!
PROOFS. One step on a command word: the command it runs (30_encoding.md R70), and its one response with one of three
status codes (30_encoding.md R67, R68).
-/

namespace Sys2Proof.Machine

open Sys2Proof.Safety

/-- A step with the word of a command next on the port executes that command on the state with the word taken. -/
theorem step_of_decode_ok {s : State} {w : Cmd} {es : List Event} {i : Instr} (hin : s.input = .command w :: es)
    (hd : decode w = .ok i) : step s = exec i (s.withInput es) := by
  rw [step_of_command hin, eq_encode_of_decode_ok hd, execWord_encode]

/-- Settles O6: the step executes the word it takes, and `withFetchWord` puts the given word first on the port. -/
theorem stepRunsDecodedCommand : Obligations.StepRunsDecodedCommand := by
  refine ⟨fun s w rest i => step_of_decode_ok, fun s w i hd => ?_⟩
  have hword : BitVec.ofNat 40 (w % 2 ^ 40) = BitVec.ofNat 40 w := BitVec.eq_of_toNat_eq (by simp)
  exact step_of_decode_ok (s := s.withFetchWord 40 w) rfl (hword ▸ hd)

/-- The commands a state does not allow (60_exceptions.md R173). -/
theorem enabled_eq_false_iff {i : Instr} {s : State} :
    enabled i s = false ↔ (i = .next ∧ s.valid = false) ∨ ∃ y, i = .clp y ∧ s.loading = false := by
  cases i <;> simp [enabled]

/-- Settles O11: a word that is no command is refused, and a command's word executes exactly when the state allows the
command. -/
theorem oneResponsePerCommand : Obligations.OneResponsePerCommand := by
  intro s w rest hin
  rw [step_of_command hin]
  obtain ⟨i, rfl⟩ | ⟨why, hwhy⟩ := encode_or_error w
  · rw [execWord_encode, decode_encode]
    cases hen : enabled i (s.withInput rest) with
    | true =>
      have hallowed := enabled_eq_false_iff.not.mp ((Bool.not_eq_false _).mpr hen)
      have hans := answers_effect i (s.withInput rest) (answer i (s.withInput rest))
      exact ⟨_, _, exec_of_enabled hen, hans.input, hans.output,
        .inl ⟨extract_high _ _, i, rfl, not_or.mp hallowed⟩⟩
    | false =>
      refine ⟨_, _, exec_of_not_enabled hen, rfl, rfl, .inr (.inr ⟨extract_high _ _, ?_⟩)⟩
      simpa using enabled_eq_false_iff.mp hen
  · exact ⟨_, _, execWord_of_error hwhy _, rfl, rfl, .inr (.inl ⟨extract_high _ _, why, hwhy⟩)⟩

/-- Settles O15: illegal fields do not decode, and the refusal sets ERR and answers. -/
theorem illegalWordSetsErrOnly : Obligations.IllegalWordSetsErrOnly := by
  intro s op arg rest hin hillegal
  obtain ⟨why, hwhy⟩ := decode_error_of_illegalFields hillegal
  exact (step_of_command hin).trans (execWord_of_error hwhy _)

/-- A run of any command words from any state completes with one response for each (70_reset_and_hazards.md R208). -/
theorem runWords_answers (ws : List Cmd) (s : State) :
    ∃ t rs, runWords ws s = .next t ∧ t.output = s.output ++ rs ∧ rs.length = ws.length := by
  induction ws generalizing s with
  | nil => exact ⟨_, [], runWords_nil s, (List.append_nil _).symm, rfl⟩
  | cons w ws ih =>
    obtain ⟨u, r, hexec, hans⟩ := execWord_answers w (feed ws s)
    obtain ⟨t, rs, hrun, hout, hlen⟩ := ih u
    refine ⟨t, r :: rs, (runWords_cons hexec).trans hrun, ?_, congrArg (· + 1) hlen⟩
    rw [hout, hans.output, List.append_assoc]
    rfl

end Sys2Proof.Machine
end

section
/-!
PROOFS. The assembler (30_encoding.md R71, R72): the operands each mnemonic takes, and the expansion of CLONE.
-/

namespace Sys2Proof.Machine

open Sys2Proof.Safety

theorem asmOperand_of_lt {n : Nat} (h : n < 4294967296) : asmOperand n = .ok (BitVec.ofNat 32 n) := if_pos h

theorem asmOperand_of_not_lt {n : Nat} (h : ¬ n < 4294967296) : asmOperand n = .error .outOfRange := if_neg h

/-- A command with an operand assembles exactly with one operand in range, to its word. -/
theorem assembleOne_eq_ok_iff {mk : Word → Instr} {op : BitVec 8} (hmk : ∀ v, encode (mk v) = op ++ v)
    {ns : List Nat} {ws : List Cmd} :
    assembleOne mk ns = .ok ws ↔ ∃ n, ns = [n] ∧ n < 4294967296 ∧ ws = [op ++ BitVec.ofNat 32 n] := by
  match ns with
  | [] => simp [assembleOne]
  | [n] =>
    by_cases hn : n < 4294967296
    · simp [assembleOne, asmOperand_of_lt, hn, Except.map, hmk, eq_comm]
    · simp [assembleOne, asmOperand_of_not_lt, hn, Except.map]
  | _ :: _ :: _ => simp [assembleOne]

/-- A command without operand assembles exactly with none, to its word. -/
theorem assembleNone_eq_ok_iff {i : Instr} {ns : List Nat} {ws : List Cmd} :
    assembleNone i ns = .ok ws ↔ ns = [] ∧ ws = [encode i] := by
  cases ns <;> simp [assembleNone, eq_comm]

/-- Settles O51: every mnemonic by the number of operands its command has. -/
theorem assemblerOperandCounts : Obligations.AssemblerOperandCounts := by
  intro ns
  simp only [List.forall_mem_cons]
  exact ⟨⟨fun _ => assembleOne_eq_ok_iff fun _ => rfl, fun _ => assembleOne_eq_ok_iff fun _ => rfl,
      fun _ => assembleOne_eq_ok_iff fun _ => rfl, fun _ => assembleOne_eq_ok_iff fun _ => rfl,
      List.forall_mem_nil _⟩,
    fun _ => assembleNone_eq_ok_iff, fun _ => assembleNone_eq_ok_iff, fun _ => assembleNone_eq_ok_iff,
    List.forall_mem_nil _⟩

/-- Operands in range assemble to one CLP each, in order. -/
theorem assemblePushes_of_inRange {ys : List Nat} (h : ∀ y ∈ ys, y < 4294967296) :
    assemblePushes ys = .ok (ys.map fun y => clpWord (BitVec.ofNat 32 y)) := by
  induction ys with
  | nil => rfl
  | cons y ys ih =>
    obtain ⟨hy, hys⟩ := List.forall_mem_cons.mp h
    simp only [assemblePushes, asmOperand_of_lt hy, ih hys, List.map_cons]
    rfl

/-- CLONE with 624 operands in range assembles to CLB and their CLPs. -/
theorem assembleClone_of_inRange {ys : List Nat} (hlen : ys.length = 624) (h : ∀ y ∈ ys, y < 4294967296) :
    assembleClone ys = .ok (clbWord :: ys.map fun y => clpWord (BitVec.ofNat 32 y)) := by
  rw [assembleClone, if_pos hlen, assemblePushes_of_inRange h]
  rfl

/-- CLONE with another number of operands is an assembler error. -/
theorem assembleClone_of_length_ne {ys : List Nat} (hlen : ys.length ≠ 624) :
    assembleClone ys = .error (.cloneCount ys.length) := if_neg hlen

/-- Settles O50: the expansion of CLONE by its operands, the responses by `runWords_answers`. -/
theorem cloneExpands : Obligations.CloneExpands := by
  refine fun ys => ⟨fun hlen hys => ?_, fun hlen => ⟨_, assembleClone_of_length_ne hlen⟩⟩
  have hcount : (clbWord :: ys.map fun y => clpWord (BitVec.ofNat 32 y)).length = 625 := by simp [hlen]
  refine ⟨assembleClone_of_inRange hlen hys, hcount, fun s => ?_⟩
  obtain ⟨t, rs, hrun, hout, hrs⟩ := runWords_answers (clbWord :: ys.map fun y => clpWord (BitVec.ofNat 32 y)) s
  exact ⟨t, rs, hrun, hout, hrs.trans hcount⟩

end Sys2Proof.Machine
end

section
/-!
PROOFS. SEED (40_seed.md R90 to R92): the words it writes, and that they are a function of the seed alone.
-/

namespace Sys2Proof.Machine

open Sys2Proof.Safety

/-! The seeded window (40_seed.md R90). -/

/-- The first word is the seed. -/
theorem getElem_seedWindow_zero (v : Word) : (seedWindow v)[0] = v :=
  getElem_seedList_zero 624 0 v (by simp)

/-- Each later word is computed from the word before it and its own index. -/
theorem getElem_seedWindow_succ (v : Word) {i : Nat} (h : i < 623) :
    (seedWindow v)[i + 1] = seedNext (seedWindow v)[i] (i + 1) := by
  simpa [seedWindow] using getElem_seedList_succ 624 0 i v (by omega)

/-- The seed can be read back from the window, so no two seeds share one (40_seed.md R92). -/
theorem seedWindow_injective : Function.Injective seedWindow := fun v v' h => by
  rw [← getElem_seedWindow_zero v, ← getElem_seedWindow_zero v', h]

/-- The four words of the rule's example. -/
theorem seedWindow_31337 :
    (seedWindow 31337#32)[0] = 0x00007A69#32 ∧ (seedWindow 31337#32)[1] = 0xE6917C6E#32 ∧
      (seedWindow 31337#32)[2] = 0x35F76C03#32 ∧ (seedWindow 31337#32)[623] = 0x811D34FE#32 := by
  decide +kernel

/-! The command. -/

/-- SEED is legal in every state; it writes the seeded window and enters the running phase. -/
theorem exec_seed_eq_next {v : Word} {s t : State} :
    exec (.seed v) s = .next t ↔ t = (s.withMt (seedWindow v)).enterRunning.emit (rspWord .ok 0#32) :=
  respondOk_eq_next

/-- The window after SEED is the seeded one, whatever the state before. -/
theorem mt_of_exec_seed {v : Word} {s t : State} (h : exec (.seed v) s = .next t) : t.mt = seedWindow v := by
  rw [exec_seed_eq_next.mp h]
  rfl

/-- After SEED the core is running, whatever its phase before. -/
theorem phaseRunning_of_exec_seed {v : Word} {s t : State} (h : exec (.seed v) s = .next t) : PhaseRunning t := by
  rw [exec_seed_eq_next.mp h]
  rfl

/-- SEED leaves ERR alone. -/
theorem err_of_exec_seed {v : Word} {s t : State} (h : exec (.seed v) s = .next t) : t.err = s.err := by
  rw [exec_seed_eq_next.mp h]
  rfl

/-- On a running core that already holds the seeded window, SEED only answers. -/
theorem exec_seed_of_seeded {v : Word} {t : State} (hmt : t.mt = seedWindow v) (hrun : PhaseRunning t) :
    exec (.seed v) t = .next (t.emit (rspWord .ok 0#32)) := by
  obtain ⟨hvalid, hloading, hlcnt⟩ := triple_eq_iff.mp hrun
  have hsame : (t.withMt (seedWindow v)).enterRunning = t :=
    State.ext_fields hmt.symm hvalid.symm hloading.symm (Fin.ext hlcnt.symm) rfl rfl rfl rfl
  rw [exec_seed_eq_next, hsame]

/-- Settles O23: the next state's window is `seedWindow v`, whose words the two lemmas about it give. -/
theorem seedFillsWindow : Obligations.SeedFillsWindow := by
  refine ⟨fun s v => ⟨decode_encode (.seed v), _, exec_seed_eq_next.mpr rfl, getElem_seedWindow_zero v,
    fun i h => getElem_seedWindow_succ v h, rfl, rfl, rfl, rfl, rfl, rfl, rfl⟩, fun s t ht => ?_⟩
  rw [mt_of_exec_seed ht]
  exact seedWindow_31337

/-- Settles O24: the window after SEED is `seedWindow` of the seed and the phase is running, from every state. -/
theorem seedIsPure : Obligations.SeedIsPure := by
  refine ⟨fun s s' t t' v h h' => ⟨?_, ?_, err_of_exec_seed h⟩,
    fun s t v h => exec_seed_of_seeded (mt_of_exec_seed h) (phaseRunning_of_exec_seed h),
    fun s s' t t' v v' h h' hmt => ?_, fun s s' t t' v v' i hi h h' hword => ?_, fun s t v h => ?_⟩
  · rw [mt_of_exec_seed h, mt_of_exec_seed h']
  · exact (phaseRunning_of_exec_seed h).trans (phaseRunning_of_exec_seed h').symm
  · rw [mt_of_exec_seed h, mt_of_exec_seed h'] at hmt
    exact seedWindow_injective hmt
  · simp only [mt_of_exec_seed h, mt_of_exec_seed h'] at hword ⊢
    rw [getElem_seedWindow_succ v hi, getElem_seedWindow_succ v' hi, hword]
  · simp only [mt_of_exec_seed h, getElem_seedWindow_zero]

end Sys2Proof.Machine
end

section
/-!
PROOFS. NEXT, one command (41_next.md R100 to R103): the combined value and the twist bit by bit, the window after the
advance, and the refusal while VALID = 0.
-/

namespace Sys2Proof.Machine

/-! The combined value (41_next.md R101). -/

/-- UPPER is bit 31 alone. -/
theorem getLsbD_upper (i : Nat) : Params.upper.getLsbD i = decide (i = 31) := by
  rw [show Params.upper = BitVec.twoPow 32 31 from rfl, BitVec.getLsbD_twoPow]
  simp [eq_comm]

/-- LOWER is every bit but bit 31. -/
theorem getLsbD_lower {i : Nat} (hi : i < 32) : Params.lower.getLsbD i = !decide (i = 31) := by
  rw [show Params.lower = ~~~Params.upper from rfl, BitVec.getLsbD_not, getLsbD_upper, decide_eq_true hi,
    Bool.true_and]

/-- The combined value takes one bit of the front word and the other bits of the following word. -/
theorem getLsbD_combine (a b : Word) {i : Nat} (hi : i < 32) :
    (combine a b).getLsbD i = if i = 31 then a.getLsbD 31 else b.getLsbD i := by
  rw [combine, BitVec.getLsbD_or, BitVec.getLsbD_and, BitVec.getLsbD_and, getLsbD_upper, getLsbD_lower hi]
  by_cases h : i = 31 <;> simp [h]

/-- The combined value is determined by the bits it takes. -/
theorem combine_congr {a a' b b' : Word} (ha : a.getLsbD 31 = a'.getLsbD 31)
    (hb : ∀ i, i < 31 → b.getLsbD i = b'.getLsbD i) : combine a b = combine a' b' := by
  apply BitVec.eq_of_getLsbD_eq
  intro i hi
  rw [getLsbD_combine a b hi, getLsbD_combine a' b' hi]
  split
  case isTrue => exact ha
  case isFalse h => exact hb i (by omega)

/-! The twist (41_next.md R102). -/

/-- Bit 31 of the shifted word is 0 and that of the constant 1, so bit 31 of the twist tells whether the constant was
applied. -/
theorem getLsbD_twist_31 (y : Word) : (twist y).getLsbD 31 = y.getLsbD 0 := by
  have hshift : (y >>> 1).getLsbD 31 = false := by
    rw [BitVec.getLsbD_ushiftRight]
    exact BitVec.getLsbD_of_ge y 32 le_rfl
  rw [twist, BitVec.getLsbD_xor, hshift, Bool.false_xor]
  cases y.getLsbD 0 <;> rfl

/-- Bit 31 of the twist gives back bit 0; with the constant known, the shifted word gives back the other bits. -/
theorem twist_injective : Function.Injective twist := by
  intro y y' h
  have hzero : y.getLsbD 0 = y'.getLsbD 0 := by rw [← getLsbD_twist_31, ← getLsbD_twist_31, h]
  have hshift : y >>> 1 = y' >>> 1 := by
    rw [twist, twist, hzero] at h
    exact (BitVec.xor_left_inj _).mp h
  apply BitVec.eq_of_getLsbD_eq
  intro i _
  cases i with
  | zero => exact hzero
  | succ i => simpa [Nat.add_comm 1 i] using congrArg (·.getLsbD i) hshift

/-- Settles O27: the first clause is the definition. -/
theorem twistIsInjective : Obligations.TwistIsInjective :=
  ⟨fun _ => rfl, getLsbD_twist_31, twist_injective⟩

/-! The window after one NEXT (41_next.md R103). -/

/-- The window after one NEXT on the window mt. -/
def nextWindow (mt : Window) : Window := advanceWindow mt (newWordOf mt)

/-- Every position but the last takes what the next position held. -/
theorem getElem_nextWindow_of_lt (mt : Window) {i : Nat} (h : i < 623) : (nextWindow mt)[i] = mt[i + 1] :=
  (getElem_advanceWindow mt _ i (by omega)).trans (dif_pos (by omega))

/-- The last position takes the new word. -/
theorem getElem_nextWindow_last (mt : Window) : (nextWindow mt)[623] = newWordOf mt :=
  getElem_advanceWindow mt _ 623 (by omega)

/-- The new word reads bit 31 of position 0, bits 30 to 0 of position 1, and position 397. -/
theorem newWordOf_congr {mt mt' : Window} (hfront : mt[0].getLsbD 31 = mt'[0].getLsbD 31)
    (hfollowing : ∀ i, i < 31 → mt[1].getLsbD i = mt'[1].getLsbD i) (hahead : mt[397] = mt'[397]) :
    newWordOf mt = newWordOf mt' := by
  rw [newWordOf, newWordOf, combine_congr hfront hfollowing, hahead]

/-! The command (41_next.md R100). -/

/-- While VALID = 1, NEXT advances the window and answers the new word tempered. -/
theorem exec_next_eq_next {s t : State} (hv : s.valid = true) : exec .next s = .next t ↔
    t = (s.withMt (nextWindow s.mt)).emit (rspWord .ok (temper (newWordOf s.mt))) := by
  rw [exec_of_enabled (i := .next) hv, Host.Outcome.next.injEq, eq_comm]
  rfl

/-- The word at position 623 after NEXT is the new word. -/
theorem getElem_last_of_exec_next {s t : State} (hv : s.valid = true) (h : exec .next s = .next t) :
    t.mt[623] = newWordOf s.mt := by
  rw [(exec_next_eq_next hv).mp h]
  exact getElem_nextWindow_last s.mt

/-- Two valid states whose windows agree where the new word reads append the same word. -/
theorem getElem_last_congr {s s' t t' : State} (hv : s.valid = true) (hv' : s'.valid = true)
    (hnew : newWordOf s.mt = newWordOf s'.mt) (h : exec .next s = .next t) (h' : exec .next s' = .next t') :
    t.mt[623] = t'.mt[623] := by
  rw [getElem_last_of_exec_next hv h, getElem_last_of_exec_next hv' h', hnew]

/-- Settles O25: the next state's window is `nextWindow`, whose words the two lemmas about it give. -/
theorem nextAdvancesWindow : Obligations.NextAdvancesWindow := by
  refine ⟨fun s hv => ?_, fun s s' t t' hv hv' hfront hfollowing hahead h h' => ?_⟩
  · have hlast := getElem_nextWindow_last s.mt
    refine ⟨_, (exec_next_eq_next hv).mpr rfl, fun i h => getElem_nextWindow_of_lt s.mt h, hlast, ?_,
      hv, rfl, rfl, rfl, rfl, rfl⟩
    simp only [State.emit_output, State.withMt_output, State.emit_mt, State.withMt_mt, hlast]
    rfl
  · exact getElem_last_congr hv hv'
      (newWordOf_congr (congrArg (·.getLsbD 31) hfront) (fun i _ => congrArg (·.getLsbD i) hfollowing) hahead) h h'

/-- Settles O26: `getLsbD_combine` says which bits are read, `newWordOf_congr` that no others are. -/
theorem nextReadsOneFrontBit : Obligations.NextReadsOneFrontBit :=
  ⟨fun a b _ hi => getLsbD_combine a b hi, fun _ _ _ _ hv hv' hfront hfollowing hahead =>
    getElem_last_congr hv hv' (newWordOf_congr hfront hfollowing hahead)⟩

/-- Settles O28: VALID is NEXT's precondition, and a refusal sets ERR and answers the code. -/
theorem nextRefusedWithoutState : Obligations.NextRefusedWithoutState :=
  fun _ hv => exec_of_not_enabled (i := .next) hv

end Sys2Proof.Machine
end

section
/-!
PROOFS. Any number of NEXT in a row (41_next.md R105, R106, R108): the windows they pass through are the stretches of
624 words of one sequence, which obeys the recurrence.
-/

namespace Sys2Proof.Machine

open Sys2Proof.Safety

/-- n NEXT on a generator advance the window n times and answer its next n outputs. -/
theorem runWords_replicate_next (n : Nat) {s : State} (hv : s.valid = true) :
    ∃ t, runWords (List.replicate n nextWord) s = .next t ∧ t.mt = nextWindow^[n] s.mt ∧
      t.output = s.output ++ (outputs n s.mt).map (rspWord .ok) := by
  induction n generalizing s with
  | zero => exact ⟨_, runWords_nil s, rfl, (List.append_nil _).symm⟩
  | succ n ih =>
    obtain ⟨t, hrun, hmt, hout⟩ := ih (s :=
      ((feed (List.replicate n nextWord) s).withMt (nextWindow s.mt)).emit
        (rspWord .ok (temper (newWordOf s.mt)))) hv
    refine ⟨t, (runWords_cons (execWord_next hv)).trans hrun, hmt, ?_⟩
    rw [hout, State.emit_output, State.withMt_output, feed_output, List.append_assoc]
    rfl

/-! The sequence (41_next.md R106). -/

/-- The word k of the sequence that begins with the window mt: the front word after k NEXT. -/
def sequenceFrom (mt : Window) (k : Nat) : Word := (nextWindow^[k] mt)[0]

/-- The window after n NEXT is the sequence from its word n on. -/
theorem getElem_iterate_nextWindow (mt : Window) (n : Nat) {i : Nat} (h : i < 624) :
    (nextWindow^[n] mt)[i] = sequenceFrom mt (n + i) := by
  induction i generalizing n with
  | zero => rfl
  | succ i ih =>
    have hlt : i < 623 := by omega
    rw [← getElem_nextWindow_of_lt _ hlt, ← Nat.succ_add_eq_add_succ, ← ih (n + 1) (by omega)]
    simp only [Function.iterate_succ_apply']

/-- The sequence begins with the window. -/
theorem sequenceFrom_of_lt (mt : Window) {i : Nat} (h : i < 624) : sequenceFrom mt i = mt[i] := by
  simpa using (getElem_iterate_nextWindow mt 0 h).symm

/-- The word that the (k+1)-th NEXT appends is the word k + 624 of the sequence. -/
theorem newWordOf_iterate_nextWindow (mt : Window) (k : Nat) :
    newWordOf (nextWindow^[k] mt) = sequenceFrom mt (k + 624) := by
  calc newWordOf (nextWindow^[k] mt)
    _ = (nextWindow (nextWindow^[k] mt))[623] := (getElem_nextWindow_last _).symm
    _ = (nextWindow^[k + 1] mt)[623] := by rw [Function.iterate_succ_apply']
    _ = sequenceFrom mt (k + 1 + 623) := getElem_iterate_nextWindow mt (k + 1) (by omega)
    _ = sequenceFrom mt (k + 624) := by rw [Nat.add_assoc]

/-- The recurrence of 41_next.md R106. -/
theorem sequenceFrom_recurrence (mt : Window) (k : Nat) : sequenceFrom mt (k + 624) =
    sequenceFrom mt (k + 397) ^^^ twist (combine (sequenceFrom mt k) (sequenceFrom mt (k + 1))) := by
  rw [← newWordOf_iterate_nextWindow, newWordOf, BitVec.xor_comm]
  simp only [getElem_iterate_nextWindow, Nat.add_zero]

/-- The outputs are the words of the sequence from 624 on, tempered. -/
theorem outputs_eq_map_sequenceFrom (n : Nat) (mt : Window) :
    outputs n mt = (List.range n).map (fun k => temper (sequenceFrom mt (k + 624))) := by
  induction n generalizing mt with
  | zero => rfl
  | succ n ih =>
    rw [outputs, ← nextWindow, ih, List.range_succ_eq_map, List.map_cons, List.map_map,
      ← newWordOf_iterate_nextWindow]
    refine congrArg₂ List.cons rfl (List.map_congr_left fun k _ => ?_)
    rw [Function.comp_apply, ← newWordOf_iterate_nextWindow, ← newWordOf_iterate_nextWindow,
      Function.iterate_succ_apply]

/-- Settles O31: the sequence is `sequenceFrom` of the window. -/
theorem nextFollowsRecurrence : Obligations.NextFollowsRecurrence := by
  intro s hv
  refine ⟨sequenceFrom s.mt, fun i h => sequenceFrom_of_lt s.mt h, sequenceFrom_recurrence s.mt, fun n => ?_⟩
  obtain ⟨t, hrun, hmt, hout⟩ := runWords_replicate_next n hv
  refine ⟨t, hrun, fun i h => ?_, ?_⟩
  · simp only [hmt, getElem_iterate_nextWindow]
  · rw [hout, outputs_eq_map_sequenceFrom, List.map_map]
    rfl

/-- The window after n NEXT as a list; after 624 of them its words are those from 624 on, all of them new. -/
theorem toList_iterate_nextWindow (mt : Window) (n : Nat) :
    (nextWindow^[n] mt).toList = (List.range 624).map (fun k => sequenceFrom mt (k + n)) := by
  apply List.ext_getElem
  · rw [Vector.length_toList, List.length_map, List.length_range]
  · intro k hk _
    have hlt : k < 624 := hk.trans_eq Vector.length_toList
    rw [Vector.getElem_toList, getElem_iterate_nextWindow mt n hlt, List.getElem_map, List.getElem_range, Nat.add_comm]

/-- Settles O30: position k then holds the word k + 624 of the sequence, which the (k+1)-th NEXT appended. -/
theorem nextsReplaceTheWindow : Obligations.NextsReplaceTheWindow := by
  intro s hv
  obtain ⟨t, hrun, hmt, hout⟩ := runWords_replicate_next 624 hv
  refine ⟨t, hrun, ⟨_, hout, ?_⟩, fun k hk => ?_⟩
  · rw [hmt, toList_iterate_nextWindow, outputs_eq_map_sequenceFrom, List.map_map, List.map_map]
    rfl
  · obtain ⟨u, hrunu, hmtu, -⟩ := runWords_replicate_next (k + 1) hv
    refine ⟨u, hrunu, ?_⟩
    simp only [hmtu, hmt, getElem_iterate_nextWindow]
    exact congrArg (sequenceFrom s.mt) (by omega)

/-! The state of all zero words (41_next.md R108). -/

section ZeroWindow

variable {mt : Window} (hzero : ∀ (i : Nat) (_ : i < 624), mt[i] = 0#32)

include hzero

/-- The new word of a window of zero words is zero. -/
theorem newWordOf_of_zero : newWordOf mt = 0#32 := by
  rw [newWordOf, hzero 0, hzero 1, hzero 397]
  rfl

/-- A window of zero words is a fixed point of the advance. -/
theorem nextWindow_of_zero : nextWindow mt = mt := by
  apply Vector.ext
  intro i hi
  by_cases hlast : i = 623
  · subst hlast
    rw [getElem_nextWindow_last, newWordOf_of_zero hzero, hzero]
  · rw [getElem_nextWindow_of_lt mt (by omega), hzero, hzero]

/-- Every output of a window of zero words is zero. -/
theorem outputs_of_zero (n : Nat) :
    outputs n mt = List.replicate n 0#32 := by
  induction n with
  | zero => rfl
  | succ n ih =>
    rw [outputs, ← nextWindow, nextWindow_of_zero hzero, ih, newWordOf_of_zero hzero, List.replicate_succ]
    rfl

end ZeroWindow

/-- Settles O29: the window is a fixed point of the advance, and its new word is zero. -/
theorem zeroStateStaysZero : Obligations.ZeroStateStaysZero := by
  intro n s hv hzero
  obtain ⟨t, hrun, hmt, hout⟩ := runWords_replicate_next n hv
  refine ⟨t, hrun, ?_, ?_⟩
  · rw [hmt, Function.iterate_fixed (nextWindow_of_zero hzero)]
  · rw [hout, outputs_of_zero hzero, List.map_replicate]
    rfl

end Sys2Proof.Machine
end

section
/-!
PROOFS. The stages of tempering (42_temper.md R120 to R127). Each stage is `v xor L v` for a GF(2)-linear L, a shift,
that a number of repetitions takes to zero; that is why replaying it undoes it (R125), and why temper is a linear
bijection with inverse untemper.
-/

namespace Sys2Proof.Machine

/-! Maps linear over GF(2). -/

/-- f is linear over GF(2): it takes xor to xor (42_temper.md R122). -/
def XorLinear (f : Word → Word) : Prop := ∀ a b, f (a ^^^ b) = f a ^^^ f b

theorem XorLinear.map_zero {f : Word → Word} (hf : XorLinear f) : f 0#32 = 0#32 := by
  simpa using hf 0#32 0#32

theorem XorLinear.comp {f g : Word → Word} (hf : XorLinear f) (hg : XorLinear g) : XorLinear (f ∘ g) := by
  intro a b
  simp only [Function.comp_apply, hg a b, hf (g a) (g b)]

/-- The inverse of a linear bijection is linear. -/
theorem XorLinear.of_inverse {f g : Word → Word} (hf : XorLinear f) (hgf : Function.LeftInverse g f)
    (hfg : Function.RightInverse g f) : XorLinear g := by
  intro a b
  calc g (a ^^^ b) = g (f (g a) ^^^ f (g b)) := by rw [hfg a, hfg b]
    _ = g (f (g a ^^^ g b)) := by rw [hf]
    _ = g a ^^^ g b := hgf _

theorem xor_xor_xor_comm (a b c d : Word) : a ^^^ b ^^^ (c ^^^ d) = a ^^^ c ^^^ (b ^^^ d) := by ac_rfl

/-- `v xor L v` is linear in v when L is: the shape of every stage. -/
theorem XorLinear.self_xor {L : Word → Word} (hL : XorLinear L) : XorLinear fun v => v ^^^ L v := by
  intro a b
  simp only [hL a b, xor_xor_xor_comm]

theorem xorLinear_shiftRight (k : Nat) : XorLinear (· >>> k) := fun a b => BitVec.ushiftRight_xor_distrib a b k

theorem xor_and_distrib (a b m : Word) : (a ^^^ b) &&& m = (a &&& m) ^^^ (b &&& m) := by
  apply BitVec.eq_of_getLsbD_eq
  intro i _
  simp only [BitVec.getLsbD_and, BitVec.getLsbD_xor, Bool.and_xor_distrib_right]

/-- The part of a masked left-shift stage that is xored to the word: `(v << k) and m`. -/
def maskedShift (k : Nat) (m v : Word) : Word := (v <<< k) &&& m

theorem xorLinear_maskedShift (k : Nat) (m : Word) : XorLinear (maskedShift k m) := by
  intro a b
  simp only [maskedShift, BitVec.shiftLeft_xor_distrib, xor_and_distrib]

theorem xorLinear_stageRight (k : Nat) : XorLinear (stageRight k) := (xorLinear_shiftRight k).self_xor

theorem xorLinear_stageLeft (k : Nat) (m : Word) : XorLinear (stageLeft k m) := (xorLinear_maskedShift k m).self_xor

/-! Undoing a stage by repetition (42_temper.md R125). -/

/-- The repetitions `v' = u xor L v'`, starting from u = v xor L v, come to v up to a repeated L: in `u xor L v'` all
terms between cancel. -/
theorem eq_xor_iterate {L : Word → Word} (hL : XorLinear L) {v : Word} {r : Nat → Word} (hzero : r 0 = v ^^^ L v)
    (hsucc : ∀ n, r (n + 1) = v ^^^ L v ^^^ L (r n)) (n : Nat) : r n = v ^^^ L^[n + 1] v := by
  induction n with
  | zero => exact hzero
  | succ n ih =>
    calc r (n + 1) = v ^^^ L v ^^^ (L v ^^^ L (L^[n + 1] v)) := by rw [hsucc, ih, hL]
      _ = v ^^^ (L v ^^^ L v) ^^^ L (L^[n + 1] v) := by ac_rfl
      _ = v ^^^ L^[n + 2] v := by rw [BitVec.xor_self, BitVec.xor_zero, Function.iterate_succ_apply' L (n + 1)]

theorem iterate_shiftRight (k n : Nat) (v : Word) : (fun w : Word => w >>> k)^[n] v = v >>> (k * n) := by
  induction n with
  | zero => exact (BitVec.ushiftRight_zero v).symm
  | succ n ih => rw [Function.iterate_succ_apply', ih, ← BitVec.shiftRight_add, Nat.mul_succ]

/-- Each masked left shift makes k more of the low bits zero. -/
theorem getLsbD_iterate_maskedShift (k : Nat) (m v : Word) (n : Nat) {i : Nat} (hi : i < k * n) :
    ((maskedShift k m)^[n] v).getLsbD i = false := by
  induction n generalizing i with
  | zero => omega
  | succ n ih =>
    rw [Nat.mul_succ] at hi
    rw [Function.iterate_succ_apply', maskedShift, BitVec.getLsbD_and, BitVec.getLsbD_shiftLeft]
    by_cases hk : i < k
    · simp [hk]
    · simp [ih (show i - k < k * n by omega)]

theorem iterate_maskedShift_eq_zero {k n : Nat} (h : 32 ≤ k * n) (m v : Word) :
    (maskedShift k m)^[n] v = 0#32 := by
  apply BitVec.eq_of_getLsbD_eq
  intro i hi
  rw [getLsbD_iterate_maskedShift k m v n (by omega), BitVec.getLsbD_zero]

/-- n repetitions undo a right-shift stage by k when n + 1 shifts by k move out all 32 bits. -/
theorem undoRight_stageRight {k n : Nat} (h : 32 ≤ k * (n + 1)) (v : Word) : undoRight k (stageRight k v) n = v := by
  rw [eq_xor_iterate (xorLinear_shiftRight k) (r := undoRight k (stageRight k v)) rfl (fun _ => rfl),
    iterate_shiftRight, BitVec.ushiftRight_eq_zero h, BitVec.xor_zero]

/-- n repetitions undo a masked left-shift stage by k when n + 1 shifts by k move out all 32 bits. -/
theorem undoLeft_stageLeft {k n : Nat} (h : 32 ≤ k * (n + 1)) (m v : Word) :
    undoLeft k m (stageLeft k m v) n = v := by
  rw [eq_xor_iterate (xorLinear_maskedShift k m) (r := undoLeft k m (stageLeft k m v)) rfl (fun _ => rfl),
    iterate_maskedShift_eq_zero h, BitVec.xor_zero]

/-- A map of words that has a left inverse is a bijection, since there are finitely many words. -/
theorem bijective_of_leftInverse {f g : Word → Word} (h : Function.LeftInverse g f) : Function.Bijective f :=
  Finite.injective_iff_bijective.mp h.injective

/-- 31 repetitions undo a stage with any shift of at least 1. -/
theorem bijective_stageRight {k : Nat} (hk : 1 ≤ k) : Function.Bijective (stageRight k) :=
  bijective_of_leftInverse (g := (undoRight k · 31)) (undoRight_stageRight (by omega))

theorem bijective_stageLeft {k : Nat} (hk : 1 ≤ k) (m : Word) : Function.Bijective (stageLeft k m) :=
  bijective_of_leftInverse (g := (undoLeft k m · 31)) (undoLeft_stageLeft (by omega) m)

/-! temper and untemper (42_temper.md R120, R122, R124). -/

theorem xorLinear_temper : XorLinear temper :=
  (xorLinear_stageRight _).comp <| (xorLinear_stageLeft _ _).comp <|
    (xorLinear_stageLeft _ _).comp (xorLinear_stageRight _)

/-- The stages undone last to first: 2 shifts by 18, 3 by 15, 5 by 7 and 3 by 11 each make at least 32. -/
theorem untemper_temper : Function.LeftInverse untemper temper := by
  intro x
  rw [untemper, temper, undoRight_stageRight (by decide), undoLeft_stageLeft (by decide),
    undoLeft_stageLeft (by decide), undoRight_stageRight (by decide)]

theorem bijective_temper : Function.Bijective temper := bijective_of_leftInverse untemper_temper

/-- The left inverse is a right inverse, since temper is onto (42_temper.md R124). -/
theorem temper_untemper : Function.RightInverse untemper temper :=
  untemper_temper.rightInverse_of_surjective bijective_temper.surjective

theorem temper_eq_iff {x z : Word} : temper x = z ↔ untemper z = x :=
  ⟨fun h => h ▸ untemper_temper x, fun h => h ▸ temper_untemper z⟩

theorem xorLinear_untemper : XorLinear untemper := xorLinear_temper.of_inverse untemper_temper temper_untemper

/-- Settles O35: temper is a composition of linear stages, and each stage is undone by repetition. -/
theorem temperIsLinearBijection : Obligations.TemperIsLinearBijection :=
  ⟨xorLinear_temper, xorLinear_temper.map_zero, bijective_temper,
    fun _ hk _ => ⟨bijective_stageRight hk, bijective_stageLeft hk⟩⟩

/-- Settles O32: the four stages are the definition of temper, and TEMPER is allowed in every state and has no effect. -/
theorem temperAnswersFourStages : Obligations.TemperAnswersFourStages :=
  ⟨fun _ x => ⟨decode_encode (.temper x), exec_of_enabled (i := .temper x) rfl, rfl⟩, by decide, by decide⟩

/-- Settles O33: UNTEMPER is allowed in every state and has no effect, and `temper_untemper` takes its answer back. -/
theorem untemperAnswersTheInverse : Obligations.UntemperAnswersTheInverse := by
  refine ⟨fun s y => ⟨decode_encode (.untemper y), untemper y, exec_of_enabled (i := .untemper y) rfl, rfl, ?_⟩,
    by decide⟩
  have hexec : exec (.temper (untemper y)) s = .next (s.emit (rspWord .ok (temper (untemper y)))) :=
    exec_of_enabled (i := .temper (untemper y)) rfl
  rw [hexec, temper_untemper y]
  rfl

end Sys2Proof.Machine
end

section
/-!
PROOFS. The matrix forms (42_temper.md R126, R129). A linear map is the xor of its values on the bits set in the word,
so a matrix computes it as soon as its entries are the bits of those 32 values.
-/

namespace Sys2Proof.Machine

/-! Linear maps by columns. -/

/-- One step of `columnsApply`: the column c of number c.2, if that bit is set in z. -/
def addColumn (z acc : Word) (c : Word × Nat) : Word := if z.getLsbD c.2 then acc ^^^ c.1 else acc

theorem columnsApply_eq_foldl (cols : List Word) (z : Word) :
    columnsApply cols z = cols.zipIdx.foldl (addColumn z) 0#32 := rfl

theorem XorLinear.map_addColumn {f : Word → Word} (hf : XorLinear f) (z acc : Word) (c : Word × Nat) :
    f (addColumn z acc c) = addColumn z (f acc) (c.map f id) := by
  simp only [addColumn, Prod.map_fst, Prod.map_snd, id_eq]
  split
  · exact hf acc c.1
  · rfl

/-- A linear map takes a xor of columns to the xor of its values on them. -/
theorem XorLinear.map_columnsApply {f : Word → Word} (hf : XorLinear f) (cols : List Word) (z : Word) :
    f (columnsApply cols z) = columnsApply (cols.map f) z := by
  rw [columnsApply_eq_foldl, columnsApply_eq_foldl, List.zipIdx_map, List.foldl_map]
  conv_rhs => rw [← hf.map_zero]
  exact (List.foldl_hom f (g₁ := addColumn z) (g₂ := fun acc c => addColumn z acc (c.map f id))
    fun acc c => (hf.map_addColumn z acc c).symm).symm

/-- The words with one bit set, `1 << j` for j = 0..31. -/
def units : List Word := (List.range 32).map (1#32 <<< ·)

theorem zipIdx_units : units.zipIdx = (List.range 32).map fun j => (1#32 <<< j, j) := by decide

theorem getLsbD_unit (j : Nat) {i : Nat} (hi : i < 32) : (1#32 <<< j).getLsbD i = decide (i = j) :=
  (getLsbD_flagWord_shiftLeft true j hi).trans (Bool.and_true _)

/-- Adding the unit j, if that bit is set in z, changes no other bit. -/
theorem getLsbD_addColumn_unit (z acc : Word) (j : Nat) {i : Nat} (hi : i < 32) :
    (addColumn z acc (1#32 <<< j, j)).getLsbD i = (acc.getLsbD i ^^ (decide (i = j) && z.getLsbD j)) := by
  rw [addColumn]
  split
  case isTrue h => rw [BitVec.getLsbD_xor, getLsbD_unit j hi, h, Bool.and_true]
  case isFalse h => rw [Bool.eq_false_of_not_eq_true h, Bool.and_false, Bool.xor_false]

/-- The xor of the units of the first n bits set in z is z cut to n bits. -/
theorem getLsbD_foldl_addColumn_units (z : Word) (n : Nat) {i : Nat} (hi : i < 32) :
    (((List.range n).map fun j => (1#32 <<< j, j)).foldl (addColumn z) 0#32).getLsbD i =
      (decide (i < n) && z.getLsbD i) := by
  induction n with
  | zero => simp
  | succ n ih =>
    rw [List.range_succ, List.map_append, List.foldl_append, List.map_singleton, List.foldl_cons, List.foldl_nil,
      getLsbD_addColumn_unit _ _ _ hi, ih]
    rcases Nat.lt_trichotomy i n with h | rfl | h
    · simp [h, Nat.ne_of_lt h, Nat.lt_succ_of_lt h]
    · simp
    · simp [Nat.ne_of_gt h, Nat.not_lt_of_gt h, Nat.not_lt.mpr h]

/-- Every word is the xor of the units of its set bits. -/
theorem columnsApply_units (z : Word) : columnsApply units z = z := by
  apply BitVec.eq_of_getLsbD_eq
  intro i hi
  rw [columnsApply_eq_foldl, zipIdx_units, getLsbD_foldl_addColumn_units z 32 hi, decide_eq_true hi, Bool.true_and]

/-- A linear map is the xor of its values on the units of the bits set in the word. -/
theorem XorLinear.eq_columnsApply {f : Word → Word} (hf : XorLinear f) (z : Word) :
    f z = columnsApply (units.map f) z := by
  rw [← hf.map_columnsApply, columnsApply_units]

/-- Two linear maps with the same values on the units are equal. -/
theorem XorLinear.ext {f g : Word → Word} (hf : XorLinear f) (hg : XorLinear g)
    (h : ∀ j, j < 32 → f (1#32 <<< j) = g (1#32 <<< j)) : f = g := by
  have hcols : units.map f = units.map g := by
    rw [units, List.map_map, List.map_map]
    exact List.map_congr_left fun j hj => h j (List.mem_range.mp hj)
  funext z
  rw [hf.eq_columnsApply, hg.eq_columnsApply, hcols]

/-! Matrices by rows. -/

/-- The parity of the bits listed is linear. -/
theorem foldl_xor_getLsbD_xor (a b : Word) (l : List Nat) (c d : Bool) :
    l.foldl (fun p i => p ^^ (a ^^^ b).getLsbD i) (c ^^ d) =
      (l.foldl (fun p i => p ^^ a.getLsbD i) c ^^ l.foldl (fun p i => p ^^ b.getLsbD i) d) := by
  induction l generalizing c d with
  | nil => rfl
  | cons i l ih =>
    have hcomm : (c ^^ d ^^ (a ^^^ b).getLsbD i) = ((c ^^ a.getLsbD i) ^^ (d ^^ b.getLsbD i)) := by
      simp only [BitVec.getLsbD_xor, Bool.xor_assoc, Bool.xor_left_comm]
    rw [List.foldl_cons, hcomm, ih, List.foldl_cons, List.foldl_cons]

theorem parity_xor (a b : Word) : parity (a ^^^ b) = (parity a ^^ parity b) :=
  foldl_xor_getLsbD_xor a b (List.range 32) false false

theorem parity_zero : parity 0#32 = false := by decide

theorem parity_unit {j : Nat} (hj : j < 32) : parity (1#32 <<< j) = true := by
  revert j
  decide +kernel

/-- The parity of a unit and a mask is that bit of the mask. -/
theorem parity_unit_and (u : Word) {j : Nat} (hj : j < 32) : parity (1#32 <<< j &&& u) = u.getLsbD j := by
  rw [← BitVec.twoPow_eq, BitVec.twoPow_and]
  split
  case isTrue h => rw [BitVec.twoPow_eq, parity_unit hj, h]
  case isFalse h => rw [parity_zero, Bool.eq_false_of_not_eq_true h]

/-- Bit i of a matrix's value is the parity of the word and row i. -/
theorem getLsbD_matrixApply (rows : List Word) (z : Word) {i : Nat} (hi : i < 32) (h : i < rows.length) :
    (matrixApply rows z).getLsbD i = parity (z &&& rows[i]) := by
  induction rows generalizing i with
  | nil => cases h
  | cons u rows ih =>
    have hcons : matrixApply (u :: rows) z = (matrixApply rows z <<< 1) ||| flagWord (parity (z &&& u)) := rfl
    rw [hcons, BitVec.getLsbD_or, BitVec.getLsbD_shiftLeft, getLsbD_flagWord]
    cases i with
    | zero => simp
    | succ i =>
      have hrow := ih (show i < 32 by omega) (Nat.lt_of_succ_lt_succ h)
      simp [hi, hrow]

/-- A matrix of 32 rows is linear, since parity is. -/
theorem xorLinear_matrixApply {rows : List Word} (hlen : rows.length = 32) : XorLinear (matrixApply rows) := by
  intro a b
  apply BitVec.eq_of_getLsbD_eq
  intro i hi
  have h : i < rows.length := hlen ▸ hi
  rw [BitVec.getLsbD_xor, getLsbD_matrixApply rows _ hi h, getLsbD_matrixApply rows _ hi h,
    getLsbD_matrixApply rows _ hi h, xor_and_distrib, parity_xor]

/-- `rows` is the matrix of f: 32 rows, and bit j of row i is bit i of f's value on the unit j. -/
structure IsMatrixOf (rows : List Word) (f : Word → Word) : Prop where
  length : rows.length = 32
  bit : ∀ (i : Nat) (h : i < rows.length) (j : Nat), j < 32 → rows[i].getLsbD j = (f (1#32 <<< j)).getLsbD i

/-- A linear map is computed by its matrix. -/
theorem IsMatrixOf.matrixApply_eq {rows : List Word} {f : Word → Word} (hm : IsMatrixOf rows f) (hf : XorLinear f) :
    matrixApply rows = f := by
  refine (xorLinear_matrixApply hm.length).ext hf fun j hj => ?_
  apply BitVec.eq_of_getLsbD_eq
  intro i hi
  have h : i < rows.length := hm.length ▸ hi
  rw [getLsbD_matrixApply rows _ hi h, parity_unit_and _ hj, hm.bit i h j hj]

/-- Each bit of a linear map is the parity of the word and the row of its matrix. -/
theorem IsMatrixOf.getLsbD_eq_parity {rows : List Word} {f : Word → Word} (hm : IsMatrixOf rows f) (hf : XorLinear f)
    (z : Word) {i : Nat} (h : i < rows.length) : (f z).getLsbD i = parity (z &&& rows[i]) := by
  rw [← getLsbD_matrixApply rows z (hm.length ▸ h) h, hm.matrixApply_eq hf]

/-! The tables of the spec, their 1024 entries evaluated by the kernel. -/

theorem isMatrixOf_temperRows : IsMatrixOf temperRows temper := ⟨rfl, by decide +kernel⟩

theorem untemperCols_eq : untemperCols = units.map untemper := by decide

theorem isMatrixOf_untemperRows : IsMatrixOf untemperRows untemper := ⟨rfl, by decide +kernel⟩

theorem temperMatrix_eq : temperMatrix = temper := isMatrixOf_temperRows.matrixApply_eq xorLinear_temper

theorem untemperMatrix_eq : untemperMatrix = untemper := isMatrixOf_untemperRows.matrixApply_eq xorLinear_untemper

/-- The columns are untemper's values on the units. -/
theorem getElem_untemperCols {j : Nat} (h : j < untemperCols.length) : untemperCols[j] = untemper (1#32 <<< j) := by
  simp [untemperCols_eq, units]

/-- Settles O34: `temper_eq_iff`, and untemper is computed by its matrix. -/
theorem untemperInvertsTemper : Obligations.UntemperInvertsTemper :=
  ⟨fun _ _ => temper_eq_iff, congrFun untemperMatrix_eq⟩

/-- Settles O36: untemper is linear, `untemperRows` is its matrix, and `untemperCols` are its values on the units. -/
theorem untemperMatrixForm : Obligations.UntemperMatrixForm := by
  refine ⟨fun z i h => isMatrixOf_untemperRows.getLsbD_eq_parity xorLinear_untemper z h,
    fun z => ⟨congrFun untemperMatrix_eq z, ?_⟩, rfl, rfl, fun j h => getElem_untemperCols h,
    fun i j h hj => isMatrixOf_untemperRows.bit i h j hj⟩
  rw [untemperCols_eq, ← xorLinear_untemper.eq_columnsApply]

/-- Settles O37: temper is linear and `temperRows` is its matrix; the matrices are inverse because the maps are. -/
theorem temperMatrixForm : Obligations.TemperMatrixForm := by
  refine ⟨rfl, fun x i h => isMatrixOf_temperRows.getLsbD_eq_parity xorLinear_temper x h,
    congrFun temperMatrix_eq, ?_⟩
  rw [temperMatrix_eq, untemperMatrix_eq]
  exact fun x => ⟨untemper_temper x, temper_untemper x⟩

end Sys2Proof.Machine
end

section
/-!
PROOFS. Runs composed: a run goes through its commands one by one, and a longer run goes on from where a shorter one
ended (70_reset_and_hazards.md R208).
-/

namespace Sys2Proof.Machine

open Sys2Proof.Safety

/-- What the host presents before a run has no part in it: a run brings its own words. -/
theorem runWords_withInput (ws : List Cmd) (es : List Event) (s : State) :
    runWords ws (s.withInput es) = runWords ws s := rfl

/-- A run whose first word is a command the state allows goes on from that command's effect and answer. -/
theorem runWords_encode_cons {i : Instr} {s : State} (h : enabled i s = true) (ws : List Cmd) :
    runWords (encode i :: ws) s = runWords ws ((effect i s).emit (rspWord .ok (answer i s))) := by
  have hexec := (execWord_encode i (feed ws s)).trans (exec_of_enabled ((enabled_withInput i _ s).trans h))
  rw [runWords_cons hexec, feed, effect_withInput, answer_withInput]
  rfl

/-- A run of one word is that word's execution with nothing else on the port. -/
theorem runWords_singleton (w : Cmd) (s : State) : runWords [w] s = execWord w (s.withInput []) := by
  obtain ⟨t, r, hexec, hans⟩ := execWord_answers w (s.withInput [])
  have hidle : t.withInput [] = t := feed_eq_self (ws := []) hans.input
  rw [runWords_cons (ws := []) hexec, runWords_nil, hidle, hexec]

/-- A run of more words goes on from the state the first words lead to. -/
theorem runWords_append {ws : List Cmd} {s t : State} (h : runWords ws s = .next t) (vs : List Cmd) :
    runWords (ws ++ vs) s = runWords vs t := by
  induction ws generalizing s with
  | nil => cases h; rfl
  | cons w ws ih =>
    obtain ⟨u, hu⟩ := execWord_ignores_input w s
    rw [runWords_cons (hu _), runWords_withInput] at h
    rw [List.cons_append, runWords_cons (hu _), runWords_withInput]
    exact ih h

/-- No command but CLB takes VALID away. -/
theorem effect_keeps_valid {i : Instr} (hi : i ≠ .clb) {s : State} (hv : s.valid = true) :
    (effect i s).valid = true := by
  cases i with
  | clb => exact absurd rfl hi
  | seed => rfl
  | clp y => rw [effect, State.countPush_valid, State.writeWord_valid, hv, ite_self]
  | next | temper | untemper | rdstat => exact hv

/-- A run without CLB keeps VALID = 1. -/
theorem runWords_keeps_valid {ws : List Cmd} (hws : ∀ w ∈ ws, w ≠ clbWord) {s t : State} (hv : s.valid = true)
    (h : runWords ws s = .next t) : t.valid = true := by
  induction ws generalizing s with
  | nil => cases h; exact hv
  | cons w ws ih =>
    obtain ⟨hw, hrest⟩ := List.forall_mem_cons.mp hws
    obtain ⟨i, rfl, -, hexec⟩ | ⟨c, -, -, hexec⟩ := execWord_completes_or_raises w (feed ws s) <;>
      rw [runWords_cons hexec] at h
    · have hi : i ≠ .clb := by rintro rfl; exact hw rfl
      exact ih hrest (s := (effect i (feed ws s)).emit _) (effect_keeps_valid hi (s := feed ws s) hv) h
    · exact ih hrest (s := ((feed ws s).withErr true).emit _) hv h

end Sys2Proof.Machine
end

section
/-!
PROOFS. CLB and CLP, one command each (43_clone.md R140, R141).
-/

namespace Sys2Proof.Machine

open Sys2Proof.Safety

/-- CLB begins a load and answers 0, in every state (43_clone.md R140). -/
theorem exec_clb (s : State) : exec .clb s = .next (s.enterLoading.emit (rspWord .ok 0#32)) :=
  exec_of_enabled (i := .clb) rfl

/-- A run whose first word is CLB goes on in the load that CLB begins. -/
theorem runWords_clb_cons (ws : List Cmd) (s : State) :
    runWords (clbWord :: ws) s = runWords ws (s.enterLoading.emit (rspWord .ok 0#32)) :=
  runWords_encode_cons (i := .clb) rfl ws

/-- RDSTAT alone answers STATUS and changes nothing (44_status.md R160). -/
theorem runWords_rdstat (s : State) :
    runWords [rdstatWord] s = .next ((s.emit (rspWord .ok (statusWord s))).withInput []) :=
  runWords_encode_cons (i := .rdstat) rfl []

/-- Right after a CLB, while no error has occurred, STATUS is LOADING's bit alone (10_state.md R29). -/
theorem statusWord_of_phaseLoading_zero {s : State} (h : PhaseLoading 0 s) (herr : s.err = false) :
    statusWord s = 2#32 := by
  obtain ⟨hvalid, hloading, hlcnt⟩ := triple_eq_iff.mp h
  rw [statusWord, hvalid, hloading, hlcnt, herr]
  rfl

/-- Settles O38: CLB is allowed in every state, and its word with an operand has illegal fields. -/
theorem clbBeginsLoad : Obligations.ClbBeginsLoad := by
  refine ⟨decode_encode .clb, fun arg harg => decode_error_of_illegalFields (.inr (.inr ⟨by decide, harg⟩)),
    exec_clb, fun s herr => ?_⟩
  have hseed : runWords [seedWord 1#32, clbWord, rdstatWord] s =
      runWords [clbWord, rdstatWord] ((effect (.seed 1#32) s).emit (rspWord .ok 0#32)) :=
    runWords_encode_cons (i := .seed 1#32) rfl _
  refine ⟨_, hseed.trans ((runWords_clb_cons _ _).trans (runWords_rdstat _)), ?_⟩
  rw [statusWord_of_phaseLoading_zero rfl (by simpa using herr)]
  simp only [State.withInput_output, State.emit_output, State.enterLoading_output, effect_output,
    List.append_assoc]
  rfl

/-- A push writes the untempered word at position LCNT and no other word. -/
theorem getElem_effect_clp (y : Word) (s : State) {i : Nat} (h : i < 624) :
    (effect (.clp y) s).mt[i] = if i = s.lcnt.val then untemper y else s.mt[i] := by
  simp only [effect, State.countPush_mt, State.writeWord_mt, Vector.getElem_set, eq_comm]

/-- The flags and the count after a push: one more, or, after the 624th, a complete load. -/
theorem flags_effect_clp (y : Word) {s : State} (hl : s.loading = true) :
    if s.lcnt.val + 1 = 624 then
      (effect (.clp y) s).lcnt = 0 ∧ (effect (.clp y) s).loading = false ∧ (effect (.clp y) s).valid = true
    else (effect (.clp y) s).lcnt.val = s.lcnt.val + 1 ∧ (effect (.clp y) s).loading = true ∧
      (effect (.clp y) s).valid = s.valid := by
  split
  case isTrue hlast =>
    rw [effect, State.countPush_of_last (s.writeWord s.lcnt (untemper y)) (show s.lcnt.val = 623 by omega)]
    exact ⟨rfl, rfl, rfl⟩
  case isFalse hlast =>
    rw [effect, State.countPush_of_lt (s.writeWord s.lcnt (untemper y)) (show s.lcnt.val + 1 < 624 by omega)]
    exact ⟨rfl, hl, rfl⟩

/-- A run whose first word is a push in a load goes on after that push. -/
theorem runWords_clp_cons (y : Word) {s : State} (hl : s.loading = true) (ws : List Cmd) :
    runWords (clpWord y :: ws) s =
      runWords ws ((effect (.clp y) s).emit (rspWord .ok (BitVec.ofNat 32 (s.lcnt.val + 1)))) :=
  runWords_encode_cons (i := .clp y) hl ws

/-- Outside a load a push is refused (43_clone.md R141). -/
theorem exec_clp_of_not_loading (y : Word) {s : State} (hl : s.loading = false) :
    exec (.clp y) s = .next { s with err := true, output := s.output ++ [0x0200000000#40] } :=
  exec_of_not_enabled (i := .clp y) hl

/-- Settles O39: LOADING is CLP's precondition, and its effect is read off word by word and flag by flag. -/
theorem clpLoadsOneWord : Obligations.ClpLoadsOneWord := by
  refine ⟨fun y => decode_encode (.clp y), fun s y hl => ⟨_, exec_of_enabled (i := .clp y) hl,
    fun i h => getElem_effect_clp y s h, ?_, flags_effect_clp y hl, effect_err _ _, effect_input _ _,
    effect_resets _ _⟩, fun s y => exec_clp_of_not_loading y, fun s => ?_⟩
  · rw [State.emit_output, effect_output]
    rfl
  · have hclp := runWords_clp_cons 0xB8CB4CB7#32 (s := s.enterLoading.emit (rspWord .ok 0#32)) rfl []
    refine ⟨_, (runWords_clb_cons _ s).trans hclp, ?_, ?_, ?_⟩
    · exact (getElem_effect_clp _ _ (by decide)).trans ((if_pos rfl).trans (by decide))
    · exact (flags_effect_clp _ (s := s.enterLoading.emit (rspWord .ok 0#32)) rfl).1
    · simp only [feed_output, State.emit_output, effect_output, State.enterLoading_output, State.emit_lcnt,
        State.enterLoading_lcnt, List.append_assoc]
      rfl

end Sys2Proof.Machine
end

section
/-!
PROOFS. A complete load (43_clone.md R142, R143, R146): 624 pushes leave their untempered words as the window, so 624
outputs of a generator, pushed in order, leave the generator's window.
-/

namespace Sys2Proof.Machine

open Sys2Proof.Safety

/-- The 624th push leaves the core running, the window being the untempered pushes in order. -/
theorem LoadedSoFar.complete {old : Window} {ps : List Word} {s : State} (h : LoadedSoFar old ps s)
    (hlen : ps.length = 623) (y : Word) :
    (effect (.clp y) s).mt.toList = (ps ++ [y]).map untemper ∧ PhaseRunning (effect (.clp y) s) := by
  have hlcnt : s.lcnt.val = 623 := h.lcnt.trans hlen
  constructor
  · refine List.ext_getElem (by simp [hlen]) fun i hi _ => ?_
    rw [Vector.length_toList] at hi
    rw [Vector.getElem_toList, getElem_effect_clp y s hi, hlcnt, List.getElem_map]
    split
    case isTrue hlast => rw [List.getElem_concat_length (hlast.trans hlen.symm)]
    case isFalse hne =>
      have hold : i < ps.length := by omega
      rw [h.pushed i hold hi, List.getElem_append_left hold]
  · rw [effect, State.countPush_of_last (s.writeWord s.lcnt (untemper y)) hlcnt]
    rfl

/-- CLB and 624 pushes, other words but SEED and CLB among them, complete a load (43_clone.md R142). -/
theorem runWords_load (s : State) {ws : List Cmd} (hws : ∀ w ∈ ws, isSeed w = false ∧ w ≠ clbWord)
    (hlen : (pushes ws).length = 623) (y : Word) :
    ∃ t, runWords (clbWord :: (ws ++ [clpWord y])) s = .next t ∧ t.input = [] ∧
      t.mt.toList = (pushes ws ++ [y]).map untemper ∧ PhaseRunning t := by
  obtain ⟨u, hrun, hu⟩ := (loadedSoFar_clb s (rspWord .ok 0#32)).carried_on hws (by simp [hlen])
  obtain ⟨hmt, hrunning⟩ := hu.complete hlen y
  have hlast := runWords_clp_cons y hu.loading []
  exact ⟨_, (runWords_clb_cons _ s).trans ((runWords_append hrun _).trans hlast), rfl, hmt, hrunning⟩

theorem clpWord_ne_clbWord (y : Word) : clpWord y ≠ clbWord := by
  intro h
  cases encode_injective (i := .clp y) (j := .clb) h

/-- The pushes of a list of CLP words are their operands. -/
theorem pushes_map_clpWord (ps : List Word) : pushes (ps.map clpWord) = ps := by
  induction ps with
  | nil => rfl
  | cons p ps ih =>
    have hclp : isClp (clpWord p) = true := isClp_encode (.clp p)
    rw [List.map_cons, pushes_cons_of_isClp hclp, ih, clpWord, operandOf_append]

/-- CLB and 624 pushes in a row leave any core running with the untempered pushes as its window. -/
theorem runWords_clone (c : State) {ys : List Word} (hlen : ys.length = 624) :
    ∃ t, runWords (clbWord :: ys.map clpWord) c = .next t ∧ t.mt.toList = ys.map untemper ∧ PhaseRunning t := by
  obtain rfl | ⟨ps, y, rfl⟩ := ys.eq_nil_or_concat'
  · cases hlen
  have hps : ps.length = 623 := by simpa using hlen
  have hws : ∀ w ∈ ps.map clpWord, isSeed w = false ∧ w ≠ clbWord :=
    List.forall_mem_map.mpr fun p _ => ⟨isSeed_encode (.clp p), clpWord_ne_clbWord p⟩
  obtain ⟨t, hrun, -, hmt, hrunning⟩ := runWords_load c hws (by rw [pushes_map_clpWord, hps]) y
  rw [pushes_map_clpWord] at hmt
  exact ⟨t, by simpa using hrun, hmt, hrunning⟩

/-- Settles O41: the load by `runWords_load`, which ends with LOADING = 0, so that one more push is refused. -/
theorem completeLoad : Obligations.CompleteLoad := by
  intro s ws y y' hws hlen
  obtain ⟨t, hrun, hin, hmt, hrunning⟩ := runWords_load s hws hlen y
  obtain ⟨hvalid, hloading, hlcnt⟩ := triple_eq_iff.mp hrunning
  have hidle : t.withInput [] = t := feed_eq_self (ws := []) hin
  refine ⟨t, hrun, hmt, hvalid, hloading, Fin.ext hlcnt, ?_⟩
  calc runWords [encode (.clp y')] t
    _ = execWord (encode (.clp y')) t := by rw [runWords_singleton, hidle]
    _ = exec (.clp y') t := execWord_encode _ t
    _ = _ := exec_clp_of_not_loading y' hloading

/-- The 624 next outputs of a window, untempered, are the window 624 NEXT later (41_next.md R105). -/
theorem map_untemper_outputs (mt : Window) : (outputs 624 mt).map untemper = (nextWindow^[624] mt).toList := by
  rw [outputs_eq_map_sequenceFrom, toList_iterate_nextWindow, List.map_map]
  exact List.map_congr_left fun k _ => untemper_temper _

theorem length_outputs (n : Nat) (mt : Window) : (outputs n mt).length = n := by
  rw [outputs_eq_map_sequenceFrom, List.length_map, List.length_range]

/-- Settles O42: the pushed outputs untemper to the generator's window, and the window determines what follows. -/
theorem cloneGuarantee : Obligations.CloneGuarantee := by
  intro g c hv
  obtain ⟨g', hrun, hmt, hout⟩ := runWords_replicate_next 624 hv
  have hv' : g'.valid = true :=
    runWords_keeps_valid (fun w hw => by rw [List.eq_of_mem_replicate hw]; decide) hv hrun
  obtain ⟨c', hclone, hmtc, hrunning⟩ := runWords_clone c (length_outputs 624 g.mt)
  have hwords : ((outputs 624 g.mt).map (rspWord .ok)).map (fun r => clpWord (rspData r)) =
      (outputs 624 g.mt).map clpWord := by
    simp only [List.map_map, Function.comp_def, rspData_rspWord]
  have hsame : c'.mt = g'.mt := by rw [← Vector.toList_inj, hmtc, map_untemper_outputs, hmt]
  obtain ⟨hvc', -, -⟩ := triple_eq_iff.mp hrunning
  refine ⟨g', c', _, hrun, hout, ?_, hsame, hrunning, fun n => ?_⟩
  · exact (congrArg (fun ws => runWords (clbWord :: ws) c) hwords).trans hclone
  · obtain ⟨g'', hrung, -, houtg⟩ := runWords_replicate_next n hv'
    obtain ⟨c'', hrunc, -, houtc⟩ := runWords_replicate_next n hvc'
    rw [hsame] at houtc
    exact ⟨g'', c'', _, hrung, hrunc, by rw [List.length_map, length_outputs], houtg, houtc⟩

/-- Settles O43: position LCNT takes the untempered word, and untempering takes tempering back. -/
theorem everyWindowIsLoadable : Obligations.EveryWindowIsLoadable := by
  refine ⟨fun s t u y hl ht hu => ?_, fun c target => ?_⟩
  · rw [exec_of_enabled (i := .clp y) hl] at ht
    rw [exec_of_enabled (i := .untemper y) rfl] at hu
    cases ht
    cases hu
    rw [State.emit_mt, getElem_effect_clp, if_pos rfl]
    rfl
  · obtain ⟨t, hrun, hmt, hrunning⟩ := runWords_clone c (ys := target.toList.map temper) (by simp)
    rw [List.map_map] at hrun
    rw [List.map_map, untemper_temper.comp_eq_id, List.map_id] at hmt
    exact ⟨t, hrun, Vector.toList_inj.mp hmt, hrunning⟩

end Sys2Proof.Machine
end

section
/-!
PROOFS. The 624 words reach the host through NEXT alone (44_status.md R161): any other command word leads from two states
that differ in the window to two states that differ in the window.
-/

namespace Sys2Proof.Machine

open Sys2Proof.Safety

/-- Counting a push neither reads nor writes the window. -/
theorem countPush_withMt (m : Window) (s : State) : (s.withMt m).countPush = s.countPush.withMt m := by
  rw [State.countPush, State.countPush, apply_dite (State.withMt m)]
  rfl

@[simp] theorem enabled_withMt (i : Instr) (m : Window) (s : State) : enabled i (s.withMt m) = enabled i s := by
  cases i <;> rfl

/-- No answer but NEXT's is computed from the window. -/
theorem answer_withMt {i : Instr} (hi : i ≠ .next) (m : Window) (s : State) :
    answer i (s.withMt m) = answer i s := by
  cases i with
  | next => exact absurd rfl hi
  | seed | temper | untemper | clb | clp | rdstat => rfl

/-- An effect on another window differs at most in the window it leaves; NEXT's too. -/
theorem effect_withMt (i : Instr) (m : Window) (s : State) :
    ∃ m', effect i (s.withMt m) = (effect i s).withMt m' := by
  cases i with
  | seed v => exact ⟨seedWindow v, rfl⟩
  | next => exact ⟨nextWindow m, rfl⟩
  | clp y => exact ⟨m.set s.lcnt.val (untemper y), countPush_withMt _ (s.writeWord s.lcnt (untemper y))⟩
  | temper | untemper | clb | rdstat => exact ⟨m, rfl⟩

/-- A word other than NEXT leads from another window to the same state but for the window. -/
theorem execWord_withMt {w : Cmd} (hw : w ≠ nextWord) (m : Window) {s t : State} (h : execWord w s = .next t) :
    ∃ m', execWord w (s.withMt m) = .next (t.withMt m') := by
  obtain ⟨i, rfl⟩ | ⟨why, hwhy⟩ := encode_or_error w
  · have hi : i ≠ .next := by rintro rfl; exact hw rfl
    rw [execWord_encode] at h ⊢
    cases hen : enabled i s with
    | true =>
      rw [exec_of_enabled hen] at h
      cases h
      obtain ⟨m', heffect⟩ := effect_withMt i m s
      rw [exec_of_enabled (by simpa using hen), heffect, answer_withMt hi]
      exact ⟨m', rfl⟩
    | false =>
      rw [exec_of_not_enabled hen] at h
      cases h
      exact ⟨m, exec_of_not_enabled (by simpa using hen)⟩
  · rw [execWord_of_error hwhy] at h
    cases h
    exact ⟨m, execWord_of_error hwhy _⟩

/-- Settles O46: by `execWord_withMt` the two next states differ at most in the window, which is neither a response nor
VALID, LOADING, LCNT or ERR. -/
theorem onlyNextRevealsWords : Obligations.OnlyNextRevealsWords := by
  intro s t m w rest hin hw ht
  rw [step_of_command hin] at ht
  obtain ⟨m', ht'⟩ := execWord_withMt hw m ht
  exact ⟨t.withMt m', (step_of_command (s := s.withMt m) hin).trans ht', rfl, rfl, rfl⟩

end Sys2Proof.Machine
end

section
/-!
PROOFS. Errors (60_exceptions.md): nothing stops the core (R174), each error code is raised in its cases and in no others
(R172, R173), and an error is precise (R178).
-/

namespace Sys2Proof

/-! The words that are no command, by the opcode map and by their fields (30_encoding.md R62, R64). -/

/-- A command without operand is refused exactly when its operand field is not zero (30_encoding.md R63). -/
theorem noOperand_eq_error {op : BitVec 8} {arg : Word} {i : Instr} {why : IllegalWord} :
    noOperand op arg i = .error why ↔ arg ≠ 0#32 ∧ .reservedOperand op arg = why := by
  unfold noOperand
  split <;> simp [*]

/-- The fields the decoder refuses are illegal: a reserved operand that is not zero, or an opcode that is none of 0x01
to 0x07. -/
theorem illegalFields_of_decodeFields_error {op : BitVec 8} {arg : Word} {why : IllegalWord}
    (h : decodeFields op arg = .error why) : IllegalFields op arg := by
  unfold decodeFields at h
  split_ifs at h with h1 h2 h3 h4 h5 h6 h7
  · exact .inr (.inr ⟨.inl h2, (noOperand_eq_error.mp h).1⟩)
  · exact .inr (.inr ⟨.inr (.inl h5), (noOperand_eq_error.mp h).1⟩)
  · exact .inr (.inr ⟨.inr (.inr h7), (noOperand_eq_error.mp h).1⟩)
  · have hout : op = 0x00#8 ∨ 8 ≤ op.toNat := by bv_omega
    exact hout.imp_right .inl

/-- A word is no command exactly when its fields are illegal. -/
theorem decode_error_iff_illegalFields {op : BitVec 8} {arg : Word} :
    (∃ why, decode (op ++ arg) = .error why) ↔ IllegalFields op arg := by
  refine ⟨fun ⟨why, h⟩ => ?_, decode_error_of_illegalFields⟩
  rw [decode_append] at h
  exact illegalFields_of_decodeFields_error h

/-- A word decodes to a command exactly when it matches a row of the opcode map: each command by its own row. -/
theorem decodes_iff_wordIsCommand (w : Cmd) : (∃ i, decode w = .ok i) ↔ wordIsCommand w = true := by
  obtain ⟨hseed, hnext, htemper, huntemper, hclb, hclp, hrdstat⟩ := decodeIsTheOpcodeMap.1 w
  have hrows : wordIsCommand w = true ↔
      w &&& 0xFF00000000#40 = 0x0100000000#40 ∨ w &&& 0xFFFFFFFFFF#40 = 0x0200000000#40 ∨
      w &&& 0xFF00000000#40 = 0x0300000000#40 ∨ w &&& 0xFF00000000#40 = 0x0400000000#40 ∨
      w &&& 0xFFFFFFFFFF#40 = 0x0500000000#40 ∨ w &&& 0xFF00000000#40 = 0x0600000000#40 ∨
      w &&& 0xFFFFFFFFFF#40 = 0x0700000000#40 := by
    simp only [wordIsCommand, opcodeMap, OpRow.covers, List.any_cons, List.any_nil, Bool.or_eq_true, beq_iff_eq,
      Bool.false_eq_true, or_false]
  rw [hrows]
  constructor
  · rintro ⟨i, hi⟩
    cases i with
    | seed v => exact .inl ((hseed v).mp hi).1
    | next => exact .inr (.inl (hnext.mp hi))
    | temper x => exact .inr (.inr (.inl ((htemper x).mp hi).1))
    | untemper y => exact .inr (.inr (.inr (.inl ((huntemper y).mp hi).1)))
    | clb => exact .inr (.inr (.inr (.inr (.inl (hclb.mp hi)))))
    | clp y => exact .inr (.inr (.inr (.inr (.inr (.inl ((hclp y).mp hi).1)))))
    | rdstat => exact .inr (.inr (.inr (.inr (.inr (.inr (hrdstat.mp hi))))))
  · rintro (h | h | h | h | h | h | h)
    · exact ⟨_, (hseed _).mpr ⟨h, rfl⟩⟩
    · exact ⟨_, hnext.mpr h⟩
    · exact ⟨_, (htemper _).mpr ⟨h, rfl⟩⟩
    · exact ⟨_, (huntemper _).mpr ⟨h, rfl⟩⟩
    · exact ⟨_, hclb.mpr h⟩
    · exact ⟨_, (hclp _).mpr ⟨h, rfl⟩⟩
    · exact ⟨_, hrdstat.mpr h⟩

/-- A word is no command exactly when it matches no row of the opcode map. -/
theorem decode_error_iff_no_row (w : Cmd) :
    (∃ why, decode w = .error why) ↔ opcodeMap.all (fun row => !row.covers w) = true := by
  have hnone : opcodeMap.all (fun row => !row.covers w) = true ↔ ¬ wordIsCommand w = true := by
    simp [wordIsCommand]
  rw [hnone, ← decodes_iff_wordIsCommand]
  cases decode w <;> simp

end Sys2Proof

namespace Sys2Proof.Machine

open Sys2Proof.Safety

/-- Settles O12: the core waits, resets, or answers the word it took. -/
theorem coreNeverStops : Obligations.CoreNeverStops := by
  intro s
  cases hin : s.input with
  | nil => exact ⟨s, step_of_idle hin⟩
  | cons e es =>
    cases e with
    | reset f => exact ⟨_, step_of_reset hin⟩
    | command w =>
      obtain ⟨t, -, ht, -⟩ := execWord_answers w (s.withInput es)
      exact ⟨t, (step_of_command hin).trans ht⟩

/-- The status a step on a command word answers: ERR_ILLEGAL exactly when the word is no command, ERR_PRECOND exactly
when it is the word of a command that the state does not allow (60_exceptions.md R172, R173). -/
theorem step_error_status {s : State} {w : Cmd} {es : List Event} (hin : s.input = .command w :: es) :
    ∃ t r, step s = .next t ∧ t.output = s.output ++ [r] ∧
      (rspStatus r = 0x01#8 ↔ ∃ why, decode w = .error why) ∧
      (rspStatus r = 0x02#8 ↔ ∃ i, w = encode i ∧ enabled i s = false) := by
  rw [step_of_command hin]
  obtain ⟨i, rfl⟩ | ⟨why, hwhy⟩ := encode_or_error w
  · have hcommand : (∃ j, encode i = encode j ∧ enabled j s = false) ↔ enabled i s = false :=
      ⟨fun ⟨_, hj, hen⟩ => encode_injective hj ▸ hen, fun hen => ⟨i, rfl, hen⟩⟩
    rw [execWord_encode, decode_encode, hcommand]
    cases hen : enabled i s with
    | true =>
      refine ⟨_, rspWord .ok (answer i s), exec_of_enabled (by simpa using hen), by simp, ?_, ?_⟩ <;>
        simp [RspStatus.code]
    | false =>
      refine ⟨_, rspWord .errPrecond 0#32, exec_of_not_enabled (by simpa using hen), rfl, ?_, ?_⟩ <;>
        simp [RspStatus.code]
  · refine ⟨_, rspWord .errIllegal 0#32, execWord_of_error hwhy _, rfl, ?_, ?_⟩
    · simp [RspStatus.code, hwhy]
    · simp [RspStatus.code, ne_encode_of_error hwhy]

/-- Settles O16: the words that are no command, by their fields and by the opcode map. -/
theorem errIllegalExactly : Obligations.ErrIllegalExactly := by
  intro s op arg rest hin
  obtain ⟨t, r, ht, hout, hillegal, -⟩ := step_error_status hin
  exact ⟨t, r, ht, hout, hillegal.trans decode_error_iff_illegalFields,
    hillegal.trans (decode_error_iff_no_row (op ++ arg))⟩

/-- The CLP words are the words with CLP's opcode (30_encoding.md R61). -/
theorem exists_eq_encode_clp_iff (w : Cmd) : (∃ y, w = encode (.clp y)) ↔ opcodeOf w = 0x06#8 := by
  constructor
  · rintro ⟨y, rfl⟩
    exact opcodeOf_append _ _
  · intro h
    exact ⟨operandOf w, eq_encode_of_decode_ok (decode_of_isClp (beq_iff_eq.mpr h))⟩

/-- The words of commands that the state does not allow: NEXT while VALID = 0, and any CLP while LOADING = 0. -/
theorem exists_encode_not_enabled_iff (w : Cmd) (s : State) :
    (∃ i, w = encode i ∧ enabled i s = false) ↔
      (w = nextWord ∧ s.valid = false) ∨ (opcodeOf w = 0x06#8 ∧ s.loading = false) := by
  rw [← exists_eq_encode_clp_iff]
  constructor
  · rintro ⟨i, rfl, hen⟩
    obtain ⟨rfl, hv⟩ | ⟨y, rfl, hl⟩ := enabled_eq_false_iff.mp hen
    · exact .inl ⟨rfl, hv⟩
    · exact .inr ⟨⟨y, rfl⟩, hl⟩
  · rintro (⟨rfl, hv⟩ | ⟨⟨y, rfl⟩, hl⟩)
    · exact ⟨.next, rfl, hv⟩
    · exact ⟨.clp y, rfl, hl⟩

/-- Settles O17: NEXT and CLP are the commands that some state does not allow. -/
theorem errPrecondExactly : Obligations.ErrPrecondExactly := by
  intro s w rest hin
  obtain ⟨t, r, ht, hout, -, hprecond⟩ := step_error_status hin
  exact ⟨t, r, ht, hout, hprecond.trans (exists_encode_not_enabled_iff w s)⟩

/-- A word whose response is an error raised it: the data is 0 and the state is the old one with ERR set and that
response added (60_exceptions.md R177, R178). -/
theorem raised_of_error_status {w : Cmd} {s t : State} {r : Rsp} (h : execWord w s = .next t)
    (hout : t.output = s.output ++ [r]) (hr : rspStatus r ≠ 0x00#8) :
    ∃ c, r = rspWord c 0#32 ∧ t = (s.withErr true).emit r := by
  obtain ⟨i, -, -, heq⟩ | ⟨c, -, -, heq⟩ := execWord_completes_or_raises w s <;> rw [heq] at h <;> cases h
  · obtain rfl : rspWord .ok (answer i s) = r := by simpa using hout
    exact absurd (rspStatus_rspWord _ _) hr
  · obtain rfl : rspWord c 0#32 = r := by simpa using hout
    exact ⟨c, rfl, rfl⟩

/-- Settles O18: a command that completes answers status 0x00, so an error response was raised. -/
theorem errorsArePrecise : Obligations.ErrorsArePrecise := by
  intro s t w rest r hin ht hout hr
  rw [step_of_command hin] at ht
  obtain ⟨c, rfl, rfl⟩ := raised_of_error_status ht hout hr
  exact ⟨congrArg (· ++ 0#32) (rspStatus_rspWord c 0#32).symm, rfl⟩

end Sys2Proof.Machine
end

section
/-!
PROOFS. Words of the window that no command can observe stay unobserved (70_reset_and_hazards.md R211, 10_state.md R33,
93_implementation_defined.md U5): with such words changed, the core goes through the same states but for such words.
-/

namespace Sys2Proof.Machine

open Sys2Proof.Safety

/-- The window m has the words of s that a command can observe: all of them while VALID = 1, and those a load in
progress has written. -/
structure ReadsAs (s : State) (m : Window) : Prop where
  valid : s.valid = true → m = s.mt
  loading : s.loading = true → ∀ (i : Nat) (_ : i < 624), i < s.lcnt.val → m[i] = s.mt[i]

theorem readsAs_self (s : State) : ReadsAs s s.mt := ⟨fun _ => rfl, fun _ _ _ _ => rfl⟩

/-- States that differ at most in unread words are one state with two windows. -/
theorem sameButUnread_iff {s s' : State} : SameButUnread s s' ↔ ∃ m, s' = s.withMt m ∧ ReadsAs s m := by
  constructor
  · rintro ⟨hvalid, hloading, hlcnt, herr, hinput, houtput, hresets, hrun, hload⟩
    exact ⟨s'.mt, State.ext_fields rfl hvalid.symm hloading.symm hlcnt.symm herr.symm hinput.symm houtput.symm
      hresets.symm, fun hv => (hrun hv).symm, fun hl i hi hlt => (hload hl i hi hlt).symm⟩
  · rintro ⟨m, rfl, hm⟩
    exact ⟨rfl, rfl, rfl, rfl, rfl, rfl, rfl, fun hv => (hm.valid hv).symm,
      fun hl i hi hlt => (hm.loading hl i hi hlt).symm⟩

/-- After a push the words up to the one it writes are the same. -/
theorem ReadsAs.getElem_effect_clp_of_le {s : State} {m : Window} (h : ReadsAs s m) (hl : s.loading = true) (y : Word)
    {i : Nat} (hi : i < 624) (hle : i ≤ s.lcnt.val) :
    (effect (.clp y) (s.withMt m)).mt[i] = (effect (.clp y) s).mt[i] := by
  rw [getElem_effect_clp, getElem_effect_clp, State.withMt_lcnt]
  split
  case isTrue => rfl
  case isFalse hne => exact h.loading hl i hi (by omega)

/-- A push reads and writes no unread word; the last one has written them all. -/
theorem ReadsAs.after_push {s : State} {m : Window} (h : ReadsAs s m) (hl : s.loading = true) (y : Word) :
    ReadsAs (effect (.clp y) s) (effect (.clp y) (s.withMt m)).mt := by
  have hflags := flags_effect_clp y hl
  by_cases hlast : s.lcnt.val + 1 = 624
  · rw [if_pos hlast] at hflags
    obtain ⟨-, hloading, -⟩ := hflags
    refine ⟨fun _ => Vector.ext fun i hi => h.getElem_effect_clp_of_le hl y hi (by omega), fun hl' => ?_⟩
    rw [hloading] at hl'
    cases hl'
  · rw [if_neg hlast] at hflags
    obtain ⟨hlcnt, -, hvalid⟩ := hflags
    refine ⟨fun hv => ?_, fun _ i hi hlt => h.getElem_effect_clp_of_le hl y hi (by omega)⟩
    obtain rfl : m = s.mt := h.valid (hvalid ▸ hv)
    rfl

/-- The effect of a command that the state allows reads no unread word: NEXT needs VALID = 1, SEED writes every word,
CLB begins with no word loaded. -/
theorem ReadsAs.after_effect {s : State} {m : Window} (h : ReadsAs s m) {i : Instr} (hen : enabled i s = true) :
    ReadsAs (effect i s) (effect i (s.withMt m)).mt := by
  cases i with
  | seed v => exact ⟨fun _ => rfl, nofun⟩
  | next =>
    obtain rfl : m = s.mt := h.valid hen
    exact readsAs_self _
  | clb => exact ⟨nofun, fun _ _ _ hlt => absurd hlt (Nat.not_lt_zero _)⟩
  | clp y => exact h.after_push hen y
  | temper | untemper | rdstat => exact h

/-- No command that the state allows answers an unread word. -/
theorem ReadsAs.answer_eq {s : State} {m : Window} (h : ReadsAs s m) {i : Instr} (hen : enabled i s = true) :
    answer i (s.withMt m) = answer i s := by
  by_cases hi : i = .next
  · subst hi
    obtain rfl : m = s.mt := h.valid hen
    rfl
  · exact answer_withMt hi m s

/-- A command word does the same, with the same response, whatever the unread words are. -/
theorem ReadsAs.after_execWord {s : State} {m : Window} (h : ReadsAs s m) (w : Cmd) :
    ∃ t m', execWord w s = .next t ∧ execWord w (s.withMt m) = .next (t.withMt m') ∧ ReadsAs t m' := by
  obtain ⟨i, rfl⟩ | ⟨why, hwhy⟩ := encode_or_error w
  · rw [execWord_encode, execWord_encode]
    cases hen : enabled i s with
    | true =>
      have heff := h.after_effect hen
      obtain ⟨m', hm'⟩ := effect_withMt i m s
      rw [hm'] at heff
      refine ⟨_, m', exec_of_enabled hen, ?_, heff.valid, heff.loading⟩
      rw [exec_of_enabled ((enabled_withMt i m s).trans hen), hm', h.answer_eq hen]
      rfl
    | false =>
      exact ⟨_, m, exec_of_not_enabled hen, exec_of_not_enabled ((enabled_withMt i m s).trans hen),
        h.valid, h.loading⟩
  · exact ⟨_, m, execWord_of_error hwhy s, execWord_of_error hwhy (s.withMt m), h.valid, h.loading⟩

/-- A step does the same whatever the unread words are; a reset forgets them. -/
theorem ReadsAs.after_step {s : State} {m : Window} (h : ReadsAs s m) :
    ∃ t m', step s = .next t ∧ step (s.withMt m) = .next (t.withMt m') ∧ ReadsAs t m' := by
  cases hin : s.input with
  | nil => exact ⟨s, m, step_of_idle hin, step_of_idle (s := s.withMt m) hin, h⟩
  | cons e es =>
    cases e with
    | reset f =>
      exact ⟨_, _, step_of_reset hin, step_of_reset (s := s.withMt m) hin, readsAs_self _⟩
    | command w =>
      have htaken : ReadsAs (s.withInput es) m := ⟨h.valid, h.loading⟩
      obtain ⟨t, m', ht, ht', hm'⟩ := htaken.after_execWord w
      exact ⟨t, m', (step_of_command hin).trans ht, (step_of_command (s := s.withMt m) hin).trans ht', hm'⟩

/-- So does a run of any number of steps. -/
theorem ReadsAs.after_run (n : Nat) {s : State} {m : Window} (h : ReadsAs s m) :
    ∃ t m', Host.Core.run Sys2Proof.core n s = .next t ∧
      Host.Core.run Sys2Proof.core n (s.withMt m) = .next (t.withMt m') ∧ ReadsAs t m' := by
  induction n generalizing s m with
  | zero => exact ⟨s, m, rfl, rfl, h⟩
  | succ n ih =>
    obtain ⟨u, mu, hu, hu', hmu⟩ := h.after_step
    obtain ⟨t, m', ht, ht', hm'⟩ := ih hmu
    exact ⟨t, m', (run_succ_of_step hu n).trans ht, (run_succ_of_step hu' n).trans ht', hm'⟩

/-- Settles O47: the two states are one state with two windows, and `ReadsAs` is kept by every step. -/
theorem unreadWordsStayUnread : Obligations.UnreadWordsStayUnread := by
  intro n s s' hsame
  obtain ⟨m, rfl, hm⟩ := sameButUnread_iff.mp hsame
  obtain ⟨t, m', ht, ht', hm'⟩ := hm.after_run n
  exact ⟨t, t.withMt m', ht, ht', sameButUnread_iff.mpr ⟨m', rfl, hm'⟩⟩

end Sys2Proof.Machine
end

section
/-!
PROOFS. Reset, runs with resets among the commands, and the transitions of (VALID, LOADING, LCNT)
(70_reset_and_hazards.md R200, R201, R208).
-/

namespace Sys2Proof.Machine

open Sys2Proof.Safety

/-- In the empty triple, while no error has occurred, STATUS reads 0 (10_state.md R29, R33). -/
theorem statusWord_of_phaseEmpty {s : State} (h : PhaseEmpty s) (herr : s.err = false) : statusWord s = 0#32 := by
  obtain ⟨hvalid, hloading, hlcnt⟩ := triple_eq_iff.mp h
  rw [statusWord, hvalid, hloading, hlcnt, herr]
  rfl

/-- Settles O9: the step takes the reset, whatever word was in flight. -/
theorem resetEventClearsState : Obligations.ResetEventClearsState := by
  intro s f rest hin
  exact ⟨_, step_of_reset hin, rfl, rfl, rfl, rfl, statusWord_of_phaseEmpty rfl rfl, rfl, rfl,
    step_of_reset (s := { s with input := .reset none :: rest }) rfl⟩

/-- Settles O14, by induction on the events: a command word adds one response, a reset none. -/
theorem runAnswersEveryCommand : Obligations.RunAnswersEveryCommand := by
  intro es s
  induction es generalizing s with
  | nil => exact ⟨s.withInput [], [], rfl, rfl, (List.append_nil _).symm, rfl⟩
  | cons e es ih =>
    cases e with
    | reset f =>
      obtain ⟨t, rs, hrun, hin, hout, hlen⟩ := ih (takeReset s)
      have hstep : step (s.withInput (.reset f :: es)) = .next ((takeReset s).withInput es) :=
        (step_of_reset (f := f) (es := es) rfl).trans rfl
      exact ⟨t, rs, (run_succ_of_step hstep es.length).trans hrun, hin, hout, hlen⟩
    | command w =>
      obtain ⟨u, hu⟩ := execWord_ignores_input w s
      obtain ⟨r, hans⟩ := answers_of_execWord (hu es)
      obtain ⟨t, rs, hrun, hin, hout, hlen⟩ := ih u
      have hstep : step (s.withInput (.command w :: es)) = .next (u.withInput es) := (step_of_command rfl).trans (hu es)
      have hur : u.output = s.output ++ [r] := hans.output
      refine ⟨t, r :: rs, (run_succ_of_step hstep es.length).trans hrun, hin, ?_, congrArg (· + 1) hlen⟩
      rw [hout, hur, List.append_assoc, List.singleton_append]

/-! The triple (VALID, LOADING, LCNT) after a command word (70_reset_and_hazards.md R201). -/

/-- A word with the opcode of SEED is the SEED of its operand field, whatever that holds (30_encoding.md R61). -/
theorem decode_of_isSeed {w : Cmd} (h : isSeed w = true) : decode w = .ok (.seed (operandOf w)) := by
  have hop : opcodeOf w = 0x01#8 := beq_iff_eq.mp h
  simp [decode, hop, decodeFields]

/-- SEED leads to *running*. -/
theorem phaseRunning_of_isSeed {w : Cmd} {s t : State} (hw : isSeed w = true) (h : execWord w s = .next t) :
    PhaseRunning t := by
  rw [eq_encode_of_decode_ok (decode_of_isSeed hw), execWord_encode] at h
  exact phaseRunning_of_exec_seed h

/-- CLB leads to *loading*, with no word pushed. -/
theorem phaseLoading_of_clb {s t : State} (h : execWord clbWord s = .next t) : PhaseLoading 0 t := by
  cases (execWord_encode .clb s).symm.trans h
  rfl

/-- NEXT leaves *running*. -/
theorem phaseRunning_of_next {s t : State} (hs : PhaseRunning s) (h : execWord nextWord s = .next t) :
    PhaseRunning t := by
  obtain ⟨hv, -, -⟩ := triple_eq_iff.mp hs
  cases (execWord_next hv).symm.trans h
  exact hs

/-- A push in a load leads to *running* if it is the 624th, and counts one word more if not. -/
theorem triple_of_isClp {w : Cmd} {s t : State} (hw : isClp w = true) (hl : s.loading = true)
    (h : execWord w s = .next t) :
    triple t = if s.lcnt.val + 1 = 624 then (true, false, 0) else (s.valid, true, s.lcnt.val + 1) := by
  have hen : enabled (.clp (operandOf w)) s = true := hl
  rw [eq_encode_of_decode_ok (decode_of_isClp hw), execWord_encode, exec_of_enabled hen] at h
  cases h
  have hflags := flags_effect_clp (operandOf w) hl
  split at hflags <;> obtain ⟨hlcnt, hloading, hvalid⟩ := hflags
  case isTrue hlast =>
    rw [if_pos hlast]
    exact triple_eq_iff.mpr ⟨hvalid, hloading, congrArg Fin.val hlcnt⟩
  case isFalse hlast =>
    rw [if_neg hlast]
    exact triple_eq_iff.mpr ⟨hvalid, hloading, hlcnt⟩

/-- Every other command, and every command that ends in an error, leaves the triple. -/
theorem triple_of_other {w : Cmd} {s t : State} (hseed : isSeed w = false) (hclb : w ≠ clbWord)
    (hclp : isClp w = false ∨ s.loading = false) (h : execWord w s = .next t) : triple t = triple s := by
  obtain ⟨i, rfl, hen, heq⟩ | ⟨c, -, -, heq⟩ := execWord_completes_or_raises w s <;> rw [heq] at h <;> cases h
  case inr => rfl
  case inl =>
    cases i with
    | seed v => simp [Instr.opcode] at hseed
    | clb => exact absurd rfl hclb
    | clp y =>
      have hl : s.loading = true := hen
      simp [Instr.opcode, hl] at hclp
    | next | temper | untemper | rdstat => rfl

/-- No command leads back to *empty*: SEED, CLB, and a push in a load lead to VALID = 1 or LOADING = 1. -/
theorem phaseEmpty_before {w : Cmd} {s t : State} (h : execWord w s = .next t) (ht : PhaseEmpty t) :
    PhaseEmpty s := by
  cases hseed : isSeed w with
  | true => cases ht.symm.trans (phaseRunning_of_isSeed hseed h)
  | false =>
    by_cases hclb : w = clbWord
    · subst hclb
      cases ht.symm.trans (phaseLoading_of_clb h)
    · by_cases hpush : isClp w = true ∧ s.loading = true
      · obtain ⟨hclp, hl⟩ := hpush
        have htriple := ht.symm.trans (triple_of_isClp hclp hl h)
        split at htriple <;> simp at htriple
      · have hother : isClp w = false ∨ s.loading = false := by simpa [imp_iff_not_or] using hpush
        exact (triple_of_other hseed hclb hother h).symm.trans ht

/-- Settles O22: one lemma per row of the table. -/
theorem phaseTransitions : Obligations.PhaseTransitions := by
  refine ⟨fun s t w rest _ hin ht => ?_, fun s t f rest hin ht => ?_⟩
  · rw [step_of_command hin] at ht
    obtain ⟨r, hans⟩ := answers_of_execWord ht
    refine ⟨fun hw => phaseRunning_of_isSeed hw ht, ?_, ?_, fun k hk hs hw => ?_, fun hs hw => ?_,
      fun hseed hclb hclp => triple_of_other (s := s.withInput rest) hseed hclb hclp ht,
      phaseEmpty_before (s := s.withInput rest) ht, fun herr => hans.err.mpr (.inl herr)⟩
    · rintro rfl
      exact phaseLoading_of_clb ht
    · rintro rfl hs
      exact phaseRunning_of_next (s := s.withInput rest) hs ht
    · obtain ⟨hv, hl, rfl⟩ := triple_eq_iff.mp hs
      have hnot : ¬ s.lcnt.val + 1 = 624 := by omega
      have htriple := triple_of_isClp (s := s.withInput rest) hw hl ht
      rw [State.withInput_lcnt, if_neg hnot, State.withInput_valid, hv] at htriple
      exact htriple
    · obtain ⟨-, hl, hlcnt⟩ := triple_eq_iff.mp hs
      exact (triple_of_isClp (s := s.withInput rest) hw hl ht).trans (if_pos (congrArg (· + 1) hlcnt))
  · rw [step_of_reset hin] at ht
    cases ht
    exact ⟨rfl, rfl⟩

end Sys2Proof.Machine
end

section
/-!
PROOFS. The reasons for which a word is no command (log entry 13), the sample words of 95_test_vectors.md, and the step
with no event pending (log entry 4).
-/

namespace Sys2Proof

/-- The reason for a reserved operand that is not zero: the fields as they stand. -/
theorem decode_eq_reservedOperand {op : BitVec 8} {arg : Word} (hop : op = 0x02#8 ∨ op = 0x05#8 ∨ op = 0x07#8)
    (harg : arg ≠ 0#32) : decode (op ++ arg) = .error (.reservedOperand op arg) := by
  rw [decode_append]
  obtain rfl | rfl | rfl := hop <;> exact noOperand_eq_error.mpr ⟨harg, rfl⟩

/-- The reason for an opcode that is none of 0x01 to 0x07: the opcode alone, whatever the operand field holds. -/
theorem decode_eq_reservedOpcode {op : BitVec 8} (hop : op = 0x00#8 ∨ 8 ≤ op.toNat) (arg : Word) :
    decode (op ++ arg) = .error (.reservedOpcode op) := by
  rw [decode_append, decodeFields]
  split_ifs
  iterate 7 · subst op; simp at hop
  rfl

/-- Settles O5: each of the seven is its command's word, and each of the two has illegal fields. -/
theorem sampleWordsDecode : Obligations.SampleWordsDecode :=
  ⟨decode_encode (.seed 31337#32), decode_encode .next, decode_encode (.temper 1#32),
    decode_encode (.untemper 0xB8CB4CB7#32), decode_encode .clb, decode_encode (.clp 0xCF7B1A1F#32),
    decode_encode .rdstat, decode_eq_reservedOperand (op := 0x02#8) (arg := 1#32) (by decide) (by decide),
    decode_eq_reservedOpcode (op := 0xFF#8) (by decide) 0x12345678#32⟩

end Sys2Proof

namespace Sys2Proof.Machine

/-- Settles O7: `step_of_idle`. -/
theorem idleCoreWaits : Obligations.IdleCoreWaits := fun _ => step_of_idle

end Sys2Proof.Machine
end
